-- ==== Sys2Proof/Word.lean ====
section
/-! DEFINITION. The word types of the block (00_scope.md R5, R6) and the names of its two engines. -/

namespace Sys2Proof

/-- A buffer cell or a command word: 8 bits, unsigned (20_memory.md R61, 30_encoding.md R90). -/
abbrev Byte := BitVec 8

/-- A symbol index, `SYM_W` = 6 bits (00_scope.md R5). -/
abbrev Index := BitVec 6

/-- The group buffer, `G24_W` = 24 bits (00_scope.md R5). -/
abbrev G24 := BitVec 24

/-- The two engines, one instance of each (00_scope.md R1, R5; 60_exceptions.md R234). -/
inductive EngineId where
  | enc
  | dec
deriving DecidableEq, Repr

end Sys2Proof
end

