-- ==== Sys2Proof/Machine/Alphabet.lean ====
section
/-! DEFINITION. The two lookups both engines are built around (40_alphabet_lookup.md): pure functions, no
state. The cell values are ASCII, which the spec itself takes from general knowledge (00_scope.md R10; log
entry 21, PRESUMED). -/

namespace Sys2Proof.Machine

/-- The forward map `ALPHA(k)` (R120). -/
def alpha (k : Index) : Byte :=
  let v : Byte := k.setWidth 8
  if k ≤ 25 then 0x41 + v
  else if k ≤ 51 then 0x61 + (v - 26)
  else if k ≤ 61 then 0x30 + (v - 52)
  else if k = 62 then 0x2B
  else 0x2F

/-- The inverse map `INV(c)` (R121); `none` is the rule's `fail`. -/
def inv (c : Byte) : Option Index :=
  if 0x41 ≤ c ∧ c ≤ 0x5A then some ((c - 0x41).setWidth 6)
  else if 0x61 ≤ c ∧ c ≤ 0x7A then some ((c - 0x61 + 26).setWidth 6)
  else if 0x30 ≤ c ∧ c ≤ 0x39 then some ((c - 0x30 + 52).setWidth 6)
  else if c = 0x2B then some 62
  else if c = 0x2F then some 63
  else none

/-- The padding character `=` (30_encoding.md R99). -/
def padCell : Byte := 0x3D

/-- The padding test `IsPad(c)` (R123). -/
def isPad (c : Byte) : Bool := c = padCell

/-- Membership in the 65-symbol set, `InSet65(c)` (R124). -/
def inSet65 (c : Byte) : Bool := (inv c).isSome || isPad c

end Sys2Proof.Machine
end

