-- ==== Sys2Proof/Syntax.lean ====
section
/-! DEFINITION. The instructions: one constructor per row of spec/opcode_table.json (30_encoding.md R104).
The three `CMD` rows are the command words; the sixty-five `SYM` rows are the character code. -/

namespace Sys2Proof

/-- One constructor per row of the opcode table. `nop` carries the don't-care bit `ENG` of its word
(43_control.md R204), so that each of its two words has one term. -/
inductive Instr where
  /-- ENCODE: start the encoder (43_control.md R202). -/
  | encode
  /-- DECODE: start the decoder (43_control.md R203). -/
  | decode
  /-- NOP (43_control.md R204). -/
  | nop (eng : BitVec 1)
  | sym0   -- the character A, cell 0x41
  | sym1   -- the character B, cell 0x42
  | sym2   -- the character C, cell 0x43
  | sym3   -- the character D, cell 0x44
  | sym4   -- the character E, cell 0x45
  | sym5   -- the character F, cell 0x46
  | sym6   -- the character G, cell 0x47
  | sym7   -- the character H, cell 0x48
  | sym8   -- the character I, cell 0x49
  | sym9   -- the character J, cell 0x4A
  | sym10   -- the character K, cell 0x4B
  | sym11   -- the character L, cell 0x4C
  | sym12   -- the character M, cell 0x4D
  | sym13   -- the character N, cell 0x4E
  | sym14   -- the character O, cell 0x4F
  | sym15   -- the character P, cell 0x50
  | sym16   -- the character Q, cell 0x51
  | sym17   -- the character R, cell 0x52
  | sym18   -- the character S, cell 0x53
  | sym19   -- the character T, cell 0x54
  | sym20   -- the character U, cell 0x55
  | sym21   -- the character V, cell 0x56
  | sym22   -- the character W, cell 0x57
  | sym23   -- the character X, cell 0x58
  | sym24   -- the character Y, cell 0x59
  | sym25   -- the character Z, cell 0x5A
  | sym26   -- the character a, cell 0x61
  | sym27   -- the character b, cell 0x62
  | sym28   -- the character c, cell 0x63
  | sym29   -- the character d, cell 0x64
  | sym30   -- the character e, cell 0x65
  | sym31   -- the character f, cell 0x66
  | sym32   -- the character g, cell 0x67
  | sym33   -- the character h, cell 0x68
  | sym34   -- the character i, cell 0x69
  | sym35   -- the character j, cell 0x6A
  | sym36   -- the character k, cell 0x6B
  | sym37   -- the character l, cell 0x6C
  | sym38   -- the character m, cell 0x6D
  | sym39   -- the character n, cell 0x6E
  | sym40   -- the character o, cell 0x6F
  | sym41   -- the character p, cell 0x70
  | sym42   -- the character q, cell 0x71
  | sym43   -- the character r, cell 0x72
  | sym44   -- the character s, cell 0x73
  | sym45   -- the character t, cell 0x74
  | sym46   -- the character u, cell 0x75
  | sym47   -- the character v, cell 0x76
  | sym48   -- the character w, cell 0x77
  | sym49   -- the character x, cell 0x78
  | sym50   -- the character y, cell 0x79
  | sym51   -- the character z, cell 0x7A
  | sym52   -- the character 0, cell 0x30
  | sym53   -- the character 1, cell 0x31
  | sym54   -- the character 2, cell 0x32
  | sym55   -- the character 3, cell 0x33
  | sym56   -- the character 4, cell 0x34
  | sym57   -- the character 5, cell 0x35
  | sym58   -- the character 6, cell 0x36
  | sym59   -- the character 7, cell 0x37
  | sym60   -- the character 8, cell 0x38
  | sym61   -- the character 9, cell 0x39
  | sym62   -- the character +, cell 0x2B
  | sym63   -- the character /, cell 0x2F
  | symPad   -- the character =, cell 0x3D
deriving DecidableEq, Repr

end Sys2Proof
end

