-- ==== Sys2Proof/Decode.lean ====
section
/-! DEFINITION. The decoder of both kinds of word (30_encoding.md R91, R94, R104), total and rejecting by name,
and after it the encoder. The two kinds have no word in common: the command words with a row are 0x00 to 0x03,
and no character of the 65-symbol set is below 0x2B (log entry 14). -/

namespace Sys2Proof

/-- Why a word is no instruction. -/
inductive DecodeError where
  /-- There is no word to read. -/
  | noWord
  /-- A reserved command word, `RSV != 0` (30_encoding.md R91); the port ignores it (43_control.md R205). -/
  | reservedCommand (w : Byte)
  /-- An invalid cell, outside the 65-symbol set (30_encoding.md R100); the decoder engine raises
  InvalidCharacter on it (42_decoder.md R174). -/
  | invalidCell (c : Byte)
  /-- A word that matches no row of the opcode table, neither a command nor a character. -/
  | noRow (w : Byte)
deriving DecidableEq, Repr

/-- Command decode (30_encoding.md R91, 43_control.md R201): tests `RSV` first, then `START`, then `ENG`. -/
def decodeCommand (w : Byte) : Except DecodeError Instr :=
  if w.extractLsb' 2 6 ≠ 0#6 then .error (.reservedCommand w)
  else if w.extractLsb' 0 1 = 0#1 then .ok (.nop (w.extractLsb' 1 1))
  else if w.extractLsb' 1 1 = 0#1 then .ok .encode
  else .ok .decode

/-- The row `SYM_k` of index `k` (30_encoding.md R104). -/
def symbolOf (k : Index) : Instr :=
  match k.toNat with
  | 0 => .sym0
  | 1 => .sym1
  | 2 => .sym2
  | 3 => .sym3
  | 4 => .sym4
  | 5 => .sym5
  | 6 => .sym6
  | 7 => .sym7
  | 8 => .sym8
  | 9 => .sym9
  | 10 => .sym10
  | 11 => .sym11
  | 12 => .sym12
  | 13 => .sym13
  | 14 => .sym14
  | 15 => .sym15
  | 16 => .sym16
  | 17 => .sym17
  | 18 => .sym18
  | 19 => .sym19
  | 20 => .sym20
  | 21 => .sym21
  | 22 => .sym22
  | 23 => .sym23
  | 24 => .sym24
  | 25 => .sym25
  | 26 => .sym26
  | 27 => .sym27
  | 28 => .sym28
  | 29 => .sym29
  | 30 => .sym30
  | 31 => .sym31
  | 32 => .sym32
  | 33 => .sym33
  | 34 => .sym34
  | 35 => .sym35
  | 36 => .sym36
  | 37 => .sym37
  | 38 => .sym38
  | 39 => .sym39
  | 40 => .sym40
  | 41 => .sym41
  | 42 => .sym42
  | 43 => .sym43
  | 44 => .sym44
  | 45 => .sym45
  | 46 => .sym46
  | 47 => .sym47
  | 48 => .sym48
  | 49 => .sym49
  | 50 => .sym50
  | 51 => .sym51
  | 52 => .sym52
  | 53 => .sym53
  | 54 => .sym54
  | 55 => .sym55
  | 56 => .sym56
  | 57 => .sym57
  | 58 => .sym58
  | 59 => .sym59
  | 60 => .sym60
  | 61 => .sym61
  | 62 => .sym62
  | _ => .sym63

/-- Character decode (30_encoding.md R94): an alphabet character, the padding character, or an invalid cell. -/
def decodeCell (c : Byte) : Except DecodeError Instr :=
  if Machine.isPad c then .ok .symPad
  else
    match Machine.inv c with
    | some k => .ok (symbolOf k)
    | none => .error (.invalidCell c)

/-- The decoder over the opcode table as a whole: the first word of the list is a command or a character, each
exactly one 8-bit word (30_encoding.md R105); the rest of the list is handed back. -/
def decode : List Byte → Except DecodeError (Instr × List Byte)
  | [] => .error .noWord
  | w :: rest =>
    match decodeCommand w with
    | .ok i => .ok (i, rest)
    | .error _ =>
      match decodeCell w with
      | .ok i => .ok (i, rest)
      | .error _ => .error (.noRow w)

/-- The first 8 bits of a word that the opcode table numbers: every instruction of this hardware is one 8-bit
word (30_encoding.md R105), so bits above them belong to what follows it (log entry 13). -/
def firstWord (nbits w : Nat) : Byte := BitVec.ofNat 8 (w % 2 ^ nbits)

/-- What the decoder reads from an instruction's bits as spec/opcode_table.json numbers them. -/
def decodeTableWord (nbits w : Nat) : Option Instr :=
  match decode [firstWord nbits w] with
  | .ok (i, _) => some i
  | .error _ => none

/-- The word of an instruction: command words by the fields of 30_encoding.md R90 (`RSV`, `ENG`, `START`), cells
by the table of R98 and by R99. -/
def word : Instr → Byte
  | .encode => 0b00000001#8
  | .decode => 0b00000011#8
  | .nop eng => 0b000000#6 ++ eng ++ 0#1
  | .sym0 => 0x41#8
  | .sym1 => 0x42#8
  | .sym2 => 0x43#8
  | .sym3 => 0x44#8
  | .sym4 => 0x45#8
  | .sym5 => 0x46#8
  | .sym6 => 0x47#8
  | .sym7 => 0x48#8
  | .sym8 => 0x49#8
  | .sym9 => 0x4A#8
  | .sym10 => 0x4B#8
  | .sym11 => 0x4C#8
  | .sym12 => 0x4D#8
  | .sym13 => 0x4E#8
  | .sym14 => 0x4F#8
  | .sym15 => 0x50#8
  | .sym16 => 0x51#8
  | .sym17 => 0x52#8
  | .sym18 => 0x53#8
  | .sym19 => 0x54#8
  | .sym20 => 0x55#8
  | .sym21 => 0x56#8
  | .sym22 => 0x57#8
  | .sym23 => 0x58#8
  | .sym24 => 0x59#8
  | .sym25 => 0x5A#8
  | .sym26 => 0x61#8
  | .sym27 => 0x62#8
  | .sym28 => 0x63#8
  | .sym29 => 0x64#8
  | .sym30 => 0x65#8
  | .sym31 => 0x66#8
  | .sym32 => 0x67#8
  | .sym33 => 0x68#8
  | .sym34 => 0x69#8
  | .sym35 => 0x6A#8
  | .sym36 => 0x6B#8
  | .sym37 => 0x6C#8
  | .sym38 => 0x6D#8
  | .sym39 => 0x6E#8
  | .sym40 => 0x6F#8
  | .sym41 => 0x70#8
  | .sym42 => 0x71#8
  | .sym43 => 0x72#8
  | .sym44 => 0x73#8
  | .sym45 => 0x74#8
  | .sym46 => 0x75#8
  | .sym47 => 0x76#8
  | .sym48 => 0x77#8
  | .sym49 => 0x78#8
  | .sym50 => 0x79#8
  | .sym51 => 0x7A#8
  | .sym52 => 0x30#8
  | .sym53 => 0x31#8
  | .sym54 => 0x32#8
  | .sym55 => 0x33#8
  | .sym56 => 0x34#8
  | .sym57 => 0x35#8
  | .sym58 => 0x36#8
  | .sym59 => 0x37#8
  | .sym60 => 0x38#8
  | .sym61 => 0x39#8
  | .sym62 => 0x2B#8
  | .sym63 => 0x2F#8
  | .symPad => 0x3D#8

/-- The words of an instruction: always one (30_encoding.md R105). -/
def encode (i : Instr) : List Byte := [word i]

end Sys2Proof
end

