-- ==== Sys2Proof/Config.lean ====
section
/-! DEFINITION. The open parameters of an instance (00_scope.md R5) and the free values: what the spec
calls unspecified or 'any value' (00_scope.md R11, 93_implementation_defined.md U11, U13, U14). -/

namespace Sys2Proof

/-- The open parameters of 00_scope.md R5. A capacity is a natural number of cells, or `none`: unbounded.
`lw` is the width of the length and index registers, or `none`: wide enough for unbounded capacities. -/
structure Config where
  inCapEnc  : Option Nat
  outCapEnc : Option Nat
  inCapDec  : Option Nat
  outCapDec : Option Nat
  lw        : Option Nat
deriving DecidableEq, Repr

/-- Every capacity and the register width unbounded. DESIGN CHOICE (log entry 10): the instance that
`State.reset` shows; safe for statements, which quantify over every state and so over every instance. -/
def Config.unbounded : Config :=
  { inCapEnc := none, outCapEnc := none, inCapDec := none, outCapDec := none, lw := none }

/-- Free value (U13, log entry 6): `IDX.e` after the n-th time it became unspecified. -/
opaque Config.freeIdx : EngineId → Nat → Nat

/-- Free value (U13, log entry 6): `OIDX.e` after the n-th time it became unspecified. -/
opaque Config.freeOidx : EngineId → Nat → Nat

/-- Free value (U14, log entry 7): cell `i` of `IN.e` that nothing has written since the n-th Reset:
`Config.freeInput e n i`. The same cell gives the same value until the next Reset. -/
opaque Config.freeInput : EngineId → Nat → Nat → Byte

/-- Free value (U11, log entry 9): what the n-th host read of an output cell without a valid value returns. -/
opaque Config.freeRead : Nat → Byte

end Sys2Proof
end

