-- ==== Sys2Proof/Machine/Action.lean ====
section
/-! DEFINITION. What the outside world can do to the block (43_control.md R200), what its reads return, and the
events a run is made of (60_exceptions.md R234). -/

namespace Sys2Proof.Machine

/-- The host's actions. The first seven are those of 43_control.md R200 and `reset` is 70_reset_and_hazards.md
R260; `writeStatus` and `writeOlen` are writes to read-only registers, which are ignored (30_encoding.md R92,
R93; log entry 17). -/
inductive HostAction where
  | cmd (w : Byte)
  | writeLen (e : EngineId) (v : Nat)
  | writeIn (e : EngineId) (i : Nat) (c : Byte)
  | readStatus (e : EngineId)
  | readLen (e : EngineId)
  | readOlen (e : EngineId)
  | readOut (e : EngineId) (i : Nat)
  | writeStatus (e : EngineId) (w : Byte)
  | writeOlen (e : EngineId) (v : Nat)
  | reset
deriving DecidableEq, Repr

/-- The host's read of an engine's register by its number (20_memory.md R78): 0 STATUS, 1 LEN, 2 OLEN; there is no
other. -/
def readRegister (e : EngineId) : Nat → Option HostAction
  | 0 => some (.readStatus e)
  | 1 => some (.readLen e)
  | 2 => some (.readOlen e)
  | _ => none

/-- The host's write of a register by its number (R78): only LEN takes it. -/
def writeRegister (e : EngineId) (v : Nat) : Nat → Option HostAction
  | 0 => some (.writeStatus e (BitVec.ofNat 8 v))
  | 1 => some (.writeLen e v)
  | 2 => some (.writeOlen e v)
  | _ => none

/-- What a host read returns (43_control.md R207, R210). -/
inductive Response where
  | status (e : EngineId) (w : Byte)
  | len (e : EngineId) (v : Nat)
  | olen (e : EngineId) (v : Nat)
  | cell (e : EngineId) (i : Nat) (c : Byte)
deriving DecidableEq, Repr

/-- One atomic transition of a run: a host action, or the turn of an engine (60_exceptions.md R234). -/
inductive Event where
  | host (a : HostAction)
  | engine (e : EngineId)
deriving DecidableEq, Repr

end Sys2Proof.Machine
end

