-- ==== Sys2Proof/Machine/Lengths.lean ====
section
/-! DEFINITION. The length functions (00_scope.md R7, 41_encoder.md R141, 42_decoder.md R171), over natural
numbers that never wrap, and the capacity tests. -/

namespace Sys2Proof.Machine

/-- `ceil(a / b)` of 00_scope.md R7: the least integer not below the exact quotient. -/
def ceilDiv (a b : Nat) : Nat := (a + (b - 1)) / b

/-- `T(n) = 4 * ceil(n / 3)`: all output cells of the encoder (R141). -/
def encTotal (n : Nat) : Nat := 4 * ceilDiv n 3

/-- `D(n) = ceil(4 * n / 3)`: the output cells that are data characters (R141, 90_conflicts.md C1). -/
def encData (n : Nat) : Nat := ceilDiv (4 * n) 3

/-- `P(n) = T(n) - D(n)`: the padding cells (R141). -/
def encPad (n : Nat) : Nat := encTotal n - encData n

/-- `E(m) = ceil(6 * m / 8)`: the decoder's output estimate (42_decoder.md R171). -/
def decEstimate (m : Nat) : Nat := ceilDiv (6 * m) 8

/-- Whether a buffer of this capacity (`none`: unbounded) has room for `n` cells (00_scope.md R5). -/
def fits (cap : Option Nat) (n : Nat) : Bool :=
  match cap with
  | none => true
  | some c => n ≤ c

/-- `IN_CAP_e` (00_scope.md R5). -/
def inCap (cfg : Config) : EngineId → Option Nat
  | .enc => cfg.inCapEnc
  | .dec => cfg.inCapDec

/-- `OUT_CAP_e` (00_scope.md R5). -/
def outCap (cfg : Config) : EngineId → Option Nat
  | .enc => cfg.outCapEnc
  | .dec => cfg.outCapDec

/-- Whether a value fits a length register, `LW` bits wide (00_scope.md R5). -/
def fitsLW (cfg : Config) (v : Nat) : Bool :=
  match cfg.lw with
  | none => true
  | some w => v < 2 ^ w

/-- A free value cut to the `LW` bits that an index register has (00_scope.md R5, 10_state.md R27). -/
def clipLW (cfg : Config) (v : Nat) : Nat :=
  match cfg.lw with
  | none => v
  | some w => v % 2 ^ w

end Sys2Proof.Machine
end

