-- ==== Sys2Proof/Machine/Memory.lean ====
section
/-! DEFINITION. A buffer: a list of (index, cell) pairs in one canonical form (20_memory.md R60). An unlisted
cell has no specified value (10_state.md R37, 60_exceptions.md R227, 93_implementation_defined.md U14). -/

namespace Sys2Proof.Machine

/-- One buffer's specified cells, indexes strictly rising. -/
abbrev Memory := List Host.Cell

/-- The canonical form: indexes strictly rising, so that equal buffers are equal lists. -/
abbrev Memory.wf (m : Memory) : Prop := m.Pairwise (fun p q => p.1 < q.1)

/-- The cell at index `a`, or `none` where it is unspecified. -/
def Memory.read : Memory → Nat → Option Byte
  | [], _ => none
  | (x, c) :: m, a => if a = x then some c else Memory.read m a

/-- Write one cell, keeping the canonical form. -/
def Memory.write : Memory → Nat → Byte → Memory
  | [], a, b => [(a, b)]
  | (x, c) :: m, a, b =>
    if a < x then (a, b) :: (x, c) :: m
    else if a = x then (a, b) :: m
    else (x, c) :: Memory.write m a b

/-- `MemWrite(S:i, k, s)` of 00_scope.md R9: write the cells of a sequence from index `a` on. -/
def Memory.writeCells : Memory → Nat → List Byte → Memory
  | m, _, [] => m
  | m, a, b :: bs => Memory.writeCells (Memory.write m a b) (a + 1) bs

end Sys2Proof.Machine
end

