-- ==== Sys2Proof/Machine/State.lean ====
section
/-! DEFINITION. The state of the block (10_state.md), plain data, and its reset value (10_state.md R37). -/

namespace Sys2Proof.Machine

/-- `STATE.e`, a 2-bit field with four values (10_state.md R21). -/
inductive Phase where
  | idle
  | busy
  | done
  | error
deriving DecidableEq, Repr

/-- The three error conditions (60_exceptions.md R220). -/
inductive Condition where
  | invalidCharacter
  | malformedLength
  | allocationFailure
deriving DecidableEq, Repr

/-- The state of one engine (10_state.md R20). `draws` is the model's own counter of free index values (log
entry 6). -/
structure Engine where
  phase  : Phase              -- `STATE.e`, R21
  err    : Option Condition   -- `ERR.e`, R22; `none` is code 0
  len    : Nat                -- `LEN.e`, R24
  olen   : Nat                -- `OLEN.e`, R25
  idx    : Nat                -- `IDX.e`, R27
  oidx   : Nat                -- `OIDX.e`, R28
  input  : Memory             -- `IN.e`, R26
  output : Memory             -- `OUT.e`, R29
  draws  : Nat
deriving DecidableEq, Repr

/-- The encoder's group registers (10_state.md R30). -/
structure EncGroup where
  b1  : Byte
  b2  : Byte
  b3  : Byte
  buf : G24
  s1  : Index
  s2  : Index
  s3  : Index
  s4  : Index
deriving DecidableEq, Repr

/-- The decoder's group registers (10_state.md R31): an index register has a value only once its cell has been
looked up, and `I3`, `I4` only where the cells are not padding. `lane` (1 to 4, then 5) is the model's own: the
lane that takes the next cell (log entry 5). -/
structure DecGroup where
  c1   : Byte
  c2   : Byte
  c3   : Byte
  c4   : Byte
  i1   : Option Index
  i2   : Option Index
  i3   : Option Index
  i4   : Option Index
  lane : Nat
deriving DecidableEq, Repr

/-- The block's state (10_state.md R20), its instance's parameters, and the model's own record of the outside
world. -/
structure State where
  cfg       : Config            -- the parameters of 00_scope.md R5; nothing writes them
  enc       : Engine
  dec       : Engine
  encGroup  : Option EncGroup   -- R30; no value between steps (R20, log entry 5)
  decGroup  : Option DecGroup   -- R31; no value between steps (R20, log entry 5)
  agenda    : List Event        -- the events to come (log entry 1)
  responses : List Response     -- what reads returned, newest first (log entry 9)
  reads     : Nat               -- free values drawn by reads (log entry 9)
  epoch     : Nat               -- Reset actions so far (log entry 7)
deriving DecidableEq, Repr

/-- What stops the machine. Only an engine's buffer access can, and no state with the invariant of 10_state.md
R36 (`State.Inv`) makes one that does. -/
inductive Fault where
  /-- Raised by a group step that would read a cell of `IN.e` at or beyond `IN_CAP_e`, a cell that does not exist
  (20_memory.md R60). Safe: the spec has no such run (log entry 16). -/
  | inputCellAbsent (e : EngineId)
  /-- Raised by a group step that would write a cell of `OUT.e` at or beyond `OUT_CAP_e`, a cell that does not
  exist (20_memory.md R60). Safe: the spec has no such run (log entry 16). -/
  | outputCellAbsent (e : EngineId)
deriving DecidableEq, Repr

/-- What has no meaning. -/
inductive Refusal where
  /-- Raised by `exec`'s arm of an instruction without a meaning; no arm is one. Safe. -/
  | notModelled (mnemonic : String)
  /-- Raised by `WriteLen(e, v)` with `v > IN_CAP_e`: the action does not exist (43_control.md R208, U9). Safe. -/
  | lenBeyondCapacity (e : EngineId) (v : Nat)
  /-- Raised by `WriteIn(e, i, c)` with `i >= IN_CAP_e`: the action does not exist (43_control.md R200). Safe. -/
  | inIndexBeyondCapacity (e : EngineId) (i : Nat)
  /-- Raised by `ReadOut(e, i)` with `i >= OUT_CAP_e`: the action does not exist (43_control.md R200). Safe. -/
  | outIndexBeyondCapacity (e : EngineId) (i : Nat)
deriving DecidableEq, Repr

/-- One engine at its reset values (10_state.md R37): IDLE, no error, lengths 0, indices and buffers unspecified.
DESIGN CHOICE (log entry 6): an unspecified index is a free value of `LW` bits. `draws` is how many the engine had
drawn before. -/
def Engine.resetWith (cfg : Config) (e : EngineId) (draws : Nat) : Engine :=
  { phase := .idle, err := none, len := 0, olen := 0,
    idx := clipLW cfg (Config.freeIdx e draws), oidx := clipLW cfg (Config.freeOidx e draws),
    input := [], output := [], draws := draws + 1 }

/-- The block right after its first reset, for an instance with these parameters (10_state.md R37,
70_reset_and_hazards.md R262). -/
def State.resetWith (cfg : Config) : State :=
  { cfg := cfg, enc := Engine.resetWith cfg .enc 0, dec := Engine.resetWith cfg .dec 0,
    encGroup := none, decGroup := none, agenda := [], responses := [], reads := 0, epoch := 0 }

/-- The machine right after reset. DESIGN CHOICE (log entry 10): the instance it shows has unbounded capacities. -/
def State.reset : State := State.resetWith Config.unbounded

end Sys2Proof.Machine
end

