-- ==== Sys2Proof/Machine/Flags.lean ====
section
/-! DEFINITION. The status fields and their codes (10_state.md R21 to R23, 30_encoding.md R92), the tests that
START makes, and the padding select. There are no other flags (10_state.md R23). -/

namespace Sys2Proof.Machine

/-- The code of `STATE.e` (10_state.md R21). -/
def phaseCode : Phase → BitVec 2
  | .idle => 0
  | .busy => 1
  | .done => 2
  | .error => 3

/-- The code of `ERR.e` (10_state.md R22, 60_exceptions.md R220). -/
def errCode : Option Condition → BitVec 2
  | none => 0
  | some .invalidCharacter => 1
  | some .malformedLength => 2
  | some .allocationFailure => 3

/-- The STATUS word (30_encoding.md R92, 43_control.md R207): four zero bits, `ERR`, `STATE`. -/
def statusWord (x : Engine) : Byte := 0#4 ++ errCode x.err ++ phaseCode x.phase

/-- The condition that the encoder's START raises, if any (41_encoder.md R143, R161). -/
def encStartError (cfg : Config) (n : Nat) : Option Condition :=
  if fits cfg.outCapEnc (encTotal n) then none else some .allocationFailure

/-- The condition that the decoder's START raises, if any, in the order of 60_exceptions.md R226 (42_decoder.md
R172). -/
def decStartError (cfg : Config) (m : Nat) : Option Condition :=
  if m % 4 ≠ 0 then some .malformedLength
  else if fits cfg.outCapDec (decEstimate m) then none
  else some .allocationFailure

/-- The padding select (41_encoder.md R148): by position only, never by the value of the symbol. -/
def selectCell (n j : Nat) (k : Index) : Byte :=
  if j < encData n then alpha k else padCell

/-- The number of bytes of a decoder group, from its cells alone (42_decoder.md R180). -/
def groupWidth (c3 c4 : Byte) : Nat :=
  if isPad c3 then 1 else if isPad c4 then 2 else 3

end Sys2Proof.Machine
end

