-- ==== Sys2Proof/Machine/Ops.lean ====
section
/-! DEFINITION. The operations every engine and the host share: engine access, the message, the error entry and
what clears it, the start and the end of an operation (10_state.md, 60_exceptions.md). -/

namespace Sys2Proof.Machine

/-- The state of one engine. -/
def State.engine (s : State) : EngineId → Engine
  | .enc => s.enc
  | .dec => s.dec

/-- Replace the state of one engine; the other is not touched (20_memory.md R76). -/
def State.setEngine (s : State) (e : EngineId) (x : Engine) : State :=
  match e with
  | .enc => { s with enc := x }
  | .dec => { s with dec := x }

/-- The group registers of an engine lose their values at the end of its step (10_state.md R30, R31). -/
def clearGroup (e : EngineId) (s : State) : State :=
  match e with
  | .enc => { s with encGroup := none }
  | .dec => { s with decGroup := none }

/-- `IDX.e` and `OIDX.e` become unspecified (10_state.md R27, 60_exceptions.md R227): free values of `LW` bits
(log entry 6). -/
def freeIndices (cfg : Config) (e : EngineId) (x : Engine) : Engine :=
  { x with idx := clipLW cfg (Config.freeIdx e x.draws), oidx := clipLW cfg (Config.freeOidx e x.draws),
           draws := x.draws + 1 }

/-- `raise X` in engine `e`: the one error entry (60_exceptions.md R227). `LEN.e`, `IN.e` and the other engine
stay; every cell of `OUT.e` becomes unspecified. -/
def raise (e : EngineId) (x : Condition) (s : State) : State :=
  clearGroup e (s.setEngine e (freeIndices s.cfg e
    { s.engine e with phase := .error, err := some x, olen := 0, output := [] }))

/-- The way out of ERROR: there is no return instruction, an accepted START clears `ERR.e`, and `OLEN.e` with it
(60_exceptions.md R230, 41_encoder.md R143, 42_decoder.md R172). -/
def acceptStart (e : EngineId) (s : State) : State :=
  s.setEngine e { s.engine e with err := none, olen := 0 }

/-- The operation begins: `IDX.e <- 0`, `OIDX.e <- 0`, `STATE.e <- BUSY` (41_encoder.md R143, 42_decoder.md
R172). -/
def beginOperation (e : EngineId) (s : State) : State :=
  s.setEngine e { s.engine e with idx := 0, oidx := 0, phase := .busy }

/-- The completion step: `OLEN.e <- OIDX.e`, `STATE.e <- DONE` (41_encoder.md R151, 42_decoder.md R181); after it
`IDX.e` and `OIDX.e` are unspecified (10_state.md R27, R28). -/
def complete (e : EngineId) (s : State) : State :=
  s.setEngine e (freeIndices s.cfg e { s.engine e with olen := (s.engine e).oidx, phase := .done })

/-- The value an engine reads in `IN.e[i]`: what was written, or for a cell nothing has written since the last
Reset a free value of that cell (10_state.md R37, log entry 7). -/
def inputCell (e : EngineId) (s : State) (i : Nat) : Byte :=
  match (s.engine e).input.read i with
  | some c => c
  | none => Config.freeInput e s.epoch i

/-- The message of an operation, `IN.e[0..LEN.e)` (10_state.md R24, R26). -/
def message (e : EngineId) (s : State) : List Byte :=
  (List.range (s.engine e).len).map (inputCell e s)

/-- Run the second part of an atomic transition unless the first has stopped. -/
def andThen (r : Host.Outcome State Fault Refusal) (f : State → Host.Outcome State Fault Refusal) :
    Host.Outcome State Fault Refusal :=
  match r with
  | .next s => f s
  | .fault x => .fault x
  | .refused x => .refused x

/-- `Reset` (70_reset_and_hazards.md R260, R261): every element takes its reset value, in both engines. The
parameters, the record of the outside world and the counters of free values are not the block's (log entry 24). -/
def resetBlock (s : State) : State :=
  { s with enc := Engine.resetWith s.cfg .enc s.enc.draws, dec := Engine.resetWith s.cfg .dec s.dec.draws,
           encGroup := none, decGroup := none, epoch := s.epoch + 1 }

/-- Put a command word where the next step takes it: on the command port, as the host's next action (log entry
12). -/
def placeCommand (w : Byte) (s : State) : State :=
  { s with agenda := .host (.cmd w) :: s.agenda }

/-- Put a character where the next step fetches it: the decoder BUSY at the first group of a one-group message,
whose three leading cells are `A` and whose last is the character, and its turn next (log entry 12). -/
def placeCell (c : Byte) (s : State) : State :=
  { s with dec := { s.dec with phase := .busy, err := none, len := 4, olen := 0, idx := 0, oidx := 0,
                               input := s.dec.input.writeCells 0 [0x41, 0x41, 0x41, c] },
           agenda := .engine .dec :: s.agenda }

end Sys2Proof.Machine
end

