-- ==== Sys2Proof/Machine/Commands.lean ====
section
/-! DEFINITION. The command words ENCODE, DECODE and NOP (43_control.md R202 to R206). -/

namespace Sys2Proof.Machine

/-- The START transition of an engine, given the condition its tests find (41_encoder.md R143, 42_decoder.md
R172): `ERR` and `OLEN` are cleared first. -/
def start (e : EngineId) (problem : Option Condition) (s : State) : State :=
  match problem with
  | some x => raise e x (acceptStart e s)
  | none => beginOperation e (acceptStart e s)

/-- ENCODE (43_control.md R202): ignored while ENC is BUSY (R206), else the START transition of 41_encoder.md
R143. -/
def execEncode (s : State) : Host.Outcome State Fault Refusal :=
  if s.enc.phase = .busy then .next s
  else .next (start .enc (encStartError s.cfg s.enc.len) s)

/-- DECODE (43_control.md R203): ignored while DEC is BUSY (R206), else the START transition of 42_decoder.md
R172. -/
def execDecode (s : State) : Host.Outcome State Fault Refusal :=
  if s.dec.phase = .busy then .next s
  else .next (start .dec (decStartError s.cfg s.dec.len) s)

/-- NOP (43_control.md R204): no effect, whatever its don't-care bit. -/
def execNop (_eng : BitVec 1) (s : State) : Host.Outcome State Fault Refusal := .next s

end Sys2Proof.Machine
end

