-- ==== Sys2Proof/Machine/Symbols.lean ====
section
/-! DEFINITION. The character code as the decoder takes it: what one lane of a group step does with its cell
(42_decoder.md R175 to R179; log entry 4). A group step hands the four fetched cells to the lanes in order, inside
one atomic transition; with no group in progress the decoder takes no cell, and nothing happens. -/

namespace Sys2Proof.Machine

/-- An alphabet character of index `k` in its lane: the lane's index is formed (R175, R177, R178), but `I4` is not
after padding in lane 3 (R179). -/
def formIndex (k : Index) (g : DecGroup) : DecGroup :=
  match g.lane with
  | 1 => { g with i1 := some k, lane := 2 }
  | 2 => { g with i2 := some k, lane := 3 }
  | 3 => { g with i3 := some k, lane := 4 }
  | 4 => if isPad g.c3 then { g with lane := 5 } else { g with i4 := some k, lane := 5 }
  | _ => g

/-- Padding in lane 3 or 4 forms no index (R177 to R179). -/
def skipIndex (g : DecGroup) : DecGroup :=
  match g.lane with
  | 3 => { g with lane := 4 }
  | 4 => { g with lane := 5 }
  | _ => g

/-- An alphabet character of index `k` reaches the decoder's lanes. -/
def takeSymbol (k : Index) (s : State) : Host.Outcome State Fault Refusal :=
  match s.decGroup with
  | none => .next s
  | some g => .next { s with decGroup := some (formIndex k g) }

/-- The padding character reaches the decoder's lanes: in lane 1 or 2 its inverse lookup fails and the step raises
InvalidCharacter (R175). -/
def takePad (s : State) : Host.Outcome State Fault Refusal :=
  match s.decGroup with
  | none => .next s
  | some g =>
    if g.lane = 1 ∨ g.lane = 2 then .next (raise .dec .invalidCharacter s)
    else .next { s with decGroup := some (skipIndex g) }

/-- SYM_0, the character A. -/
def execSym0 (s : State) : Host.Outcome State Fault Refusal := takeSymbol 0 s

/-- SYM_1, the character B. -/
def execSym1 (s : State) : Host.Outcome State Fault Refusal := takeSymbol 1 s

/-- SYM_2, the character C. -/
def execSym2 (s : State) : Host.Outcome State Fault Refusal := takeSymbol 2 s

/-- SYM_3, the character D. -/
def execSym3 (s : State) : Host.Outcome State Fault Refusal := takeSymbol 3 s

/-- SYM_4, the character E. -/
def execSym4 (s : State) : Host.Outcome State Fault Refusal := takeSymbol 4 s

/-- SYM_5, the character F. -/
def execSym5 (s : State) : Host.Outcome State Fault Refusal := takeSymbol 5 s

/-- SYM_6, the character G. -/
def execSym6 (s : State) : Host.Outcome State Fault Refusal := takeSymbol 6 s

/-- SYM_7, the character H. -/
def execSym7 (s : State) : Host.Outcome State Fault Refusal := takeSymbol 7 s

/-- SYM_8, the character I. -/
def execSym8 (s : State) : Host.Outcome State Fault Refusal := takeSymbol 8 s

/-- SYM_9, the character J. -/
def execSym9 (s : State) : Host.Outcome State Fault Refusal := takeSymbol 9 s

/-- SYM_10, the character K. -/
def execSym10 (s : State) : Host.Outcome State Fault Refusal := takeSymbol 10 s

/-- SYM_11, the character L. -/
def execSym11 (s : State) : Host.Outcome State Fault Refusal := takeSymbol 11 s

/-- SYM_12, the character M. -/
def execSym12 (s : State) : Host.Outcome State Fault Refusal := takeSymbol 12 s

/-- SYM_13, the character N. -/
def execSym13 (s : State) : Host.Outcome State Fault Refusal := takeSymbol 13 s

/-- SYM_14, the character O. -/
def execSym14 (s : State) : Host.Outcome State Fault Refusal := takeSymbol 14 s

/-- SYM_15, the character P. -/
def execSym15 (s : State) : Host.Outcome State Fault Refusal := takeSymbol 15 s

/-- SYM_16, the character Q. -/
def execSym16 (s : State) : Host.Outcome State Fault Refusal := takeSymbol 16 s

/-- SYM_17, the character R. -/
def execSym17 (s : State) : Host.Outcome State Fault Refusal := takeSymbol 17 s

/-- SYM_18, the character S. -/
def execSym18 (s : State) : Host.Outcome State Fault Refusal := takeSymbol 18 s

/-- SYM_19, the character T. -/
def execSym19 (s : State) : Host.Outcome State Fault Refusal := takeSymbol 19 s

/-- SYM_20, the character U. -/
def execSym20 (s : State) : Host.Outcome State Fault Refusal := takeSymbol 20 s

/-- SYM_21, the character V. -/
def execSym21 (s : State) : Host.Outcome State Fault Refusal := takeSymbol 21 s

/-- SYM_22, the character W. -/
def execSym22 (s : State) : Host.Outcome State Fault Refusal := takeSymbol 22 s

/-- SYM_23, the character X. -/
def execSym23 (s : State) : Host.Outcome State Fault Refusal := takeSymbol 23 s

/-- SYM_24, the character Y. -/
def execSym24 (s : State) : Host.Outcome State Fault Refusal := takeSymbol 24 s

/-- SYM_25, the character Z. -/
def execSym25 (s : State) : Host.Outcome State Fault Refusal := takeSymbol 25 s

/-- SYM_26, the character a. -/
def execSym26 (s : State) : Host.Outcome State Fault Refusal := takeSymbol 26 s

/-- SYM_27, the character b. -/
def execSym27 (s : State) : Host.Outcome State Fault Refusal := takeSymbol 27 s

/-- SYM_28, the character c. -/
def execSym28 (s : State) : Host.Outcome State Fault Refusal := takeSymbol 28 s

/-- SYM_29, the character d. -/
def execSym29 (s : State) : Host.Outcome State Fault Refusal := takeSymbol 29 s

/-- SYM_30, the character e. -/
def execSym30 (s : State) : Host.Outcome State Fault Refusal := takeSymbol 30 s

/-- SYM_31, the character f. -/
def execSym31 (s : State) : Host.Outcome State Fault Refusal := takeSymbol 31 s

/-- SYM_32, the character g. -/
def execSym32 (s : State) : Host.Outcome State Fault Refusal := takeSymbol 32 s

/-- SYM_33, the character h. -/
def execSym33 (s : State) : Host.Outcome State Fault Refusal := takeSymbol 33 s

/-- SYM_34, the character i. -/
def execSym34 (s : State) : Host.Outcome State Fault Refusal := takeSymbol 34 s

/-- SYM_35, the character j. -/
def execSym35 (s : State) : Host.Outcome State Fault Refusal := takeSymbol 35 s

/-- SYM_36, the character k. -/
def execSym36 (s : State) : Host.Outcome State Fault Refusal := takeSymbol 36 s

/-- SYM_37, the character l. -/
def execSym37 (s : State) : Host.Outcome State Fault Refusal := takeSymbol 37 s

/-- SYM_38, the character m. -/
def execSym38 (s : State) : Host.Outcome State Fault Refusal := takeSymbol 38 s

/-- SYM_39, the character n. -/
def execSym39 (s : State) : Host.Outcome State Fault Refusal := takeSymbol 39 s

/-- SYM_40, the character o. -/
def execSym40 (s : State) : Host.Outcome State Fault Refusal := takeSymbol 40 s

/-- SYM_41, the character p. -/
def execSym41 (s : State) : Host.Outcome State Fault Refusal := takeSymbol 41 s

/-- SYM_42, the character q. -/
def execSym42 (s : State) : Host.Outcome State Fault Refusal := takeSymbol 42 s

/-- SYM_43, the character r. -/
def execSym43 (s : State) : Host.Outcome State Fault Refusal := takeSymbol 43 s

/-- SYM_44, the character s. -/
def execSym44 (s : State) : Host.Outcome State Fault Refusal := takeSymbol 44 s

/-- SYM_45, the character t. -/
def execSym45 (s : State) : Host.Outcome State Fault Refusal := takeSymbol 45 s

/-- SYM_46, the character u. -/
def execSym46 (s : State) : Host.Outcome State Fault Refusal := takeSymbol 46 s

/-- SYM_47, the character v. -/
def execSym47 (s : State) : Host.Outcome State Fault Refusal := takeSymbol 47 s

/-- SYM_48, the character w. -/
def execSym48 (s : State) : Host.Outcome State Fault Refusal := takeSymbol 48 s

/-- SYM_49, the character x. -/
def execSym49 (s : State) : Host.Outcome State Fault Refusal := takeSymbol 49 s

/-- SYM_50, the character y. -/
def execSym50 (s : State) : Host.Outcome State Fault Refusal := takeSymbol 50 s

/-- SYM_51, the character z. -/
def execSym51 (s : State) : Host.Outcome State Fault Refusal := takeSymbol 51 s

/-- SYM_52, the character 0. -/
def execSym52 (s : State) : Host.Outcome State Fault Refusal := takeSymbol 52 s

/-- SYM_53, the character 1. -/
def execSym53 (s : State) : Host.Outcome State Fault Refusal := takeSymbol 53 s

/-- SYM_54, the character 2. -/
def execSym54 (s : State) : Host.Outcome State Fault Refusal := takeSymbol 54 s

/-- SYM_55, the character 3. -/
def execSym55 (s : State) : Host.Outcome State Fault Refusal := takeSymbol 55 s

/-- SYM_56, the character 4. -/
def execSym56 (s : State) : Host.Outcome State Fault Refusal := takeSymbol 56 s

/-- SYM_57, the character 5. -/
def execSym57 (s : State) : Host.Outcome State Fault Refusal := takeSymbol 57 s

/-- SYM_58, the character 6. -/
def execSym58 (s : State) : Host.Outcome State Fault Refusal := takeSymbol 58 s

/-- SYM_59, the character 7. -/
def execSym59 (s : State) : Host.Outcome State Fault Refusal := takeSymbol 59 s

/-- SYM_60, the character 8. -/
def execSym60 (s : State) : Host.Outcome State Fault Refusal := takeSymbol 60 s

/-- SYM_61, the character 9. -/
def execSym61 (s : State) : Host.Outcome State Fault Refusal := takeSymbol 61 s

/-- SYM_62, the character +. -/
def execSym62 (s : State) : Host.Outcome State Fault Refusal := takeSymbol 62 s

/-- SYM_63, the character /. -/
def execSym63 (s : State) : Host.Outcome State Fault Refusal := takeSymbol 63 s

/-- SYM_PAD, the padding character (40_alphabet_lookup.md R123). -/
def execSymPad (s : State) : Host.Outcome State Fault Refusal := takePad s

end Sys2Proof.Machine
end

