-- ==== Sys2Proof/Machine/Operands.lean ====
section
/-! DEFINITION. The only operand assembly there is (30_encoding.md R95 to R97, R105): cells into the 24-bit group,
its four symbols, and indices back into bytes. -/

namespace Sys2Proof.Machine

/-- `(b1 << 16) | (b2 << 8) | b3` (30_encoding.md R95, 41_encoder.md R145). -/
def assemble (b1 b2 b3 : Byte) : G24 :=
  (b1.setWidth 24 <<< 16) ||| (b2.setWidth 24 <<< 8) ||| b3.setWidth 24

/-- `S1` (30_encoding.md R96, 41_encoder.md R146). -/
def symbol1 (buf : G24) : Index := ((buf &&& 0xFC0000) >>> 18).setWidth 6

/-- `S2` (R96, R146). -/
def symbol2 (buf : G24) : Index := ((buf &&& 0x03F000) >>> 12).setWidth 6

/-- `S3` (R96, R146). -/
def symbol3 (buf : G24) : Index := ((buf &&& 0x000FC0) >>> 6).setWidth 6

/-- `S4` (R96, R146). -/
def symbol4 (buf : G24) : Index := (buf &&& 0x00003F).setWidth 6

/-- The encoder's group registers once the three cells are read: assemble and regroup (R145, R146). -/
def encGroupOf (b1 b2 b3 : Byte) : EncGroup :=
  let buf := assemble b1 b2 b3
  { b1 := b1, b2 := b2, b3 := b3, buf := buf,
    s1 := symbol1 buf, s2 := symbol2 buf, s3 := symbol3 buf, s4 := symbol4 buf }

/-- `Y1 = (i1 << 2) | (i2 >> 4)` (30_encoding.md R97, 42_decoder.md R176). -/
def byte1 (i1 i2 : Index) : Byte := (i1.setWidth 8 <<< 2) ||| (i2.setWidth 8 >>> 4)

/-- `Y2 = ((i2 & 0xF) << 4) | (i3 >> 2)` (R97, R177). -/
def byte2 (i2 i3 : Index) : Byte := ((i2.setWidth 8 &&& 0xF) <<< 4) ||| (i3.setWidth 8 >>> 2)

/-- `Y3 = ((i3 & 0x3) << 6) | i4` (R97, R178). -/
def byte3 (i3 i4 : Index) : Byte := ((i3.setWidth 8 &&& 0x3) <<< 6) ||| i4.setWidth 8

/-- The bytes a decoder group contributes: 3, or 2 without `I4`, or 1 without `I3` (42_decoder.md R176 to R180). -/
def groupBytes (g : DecGroup) : List Byte :=
  match g.i1, g.i2, g.i3, g.i4 with
  | some i1, some i2, none, _ => [byte1 i1 i2]
  | some i1, some i2, some i3, none => [byte1 i1 i2, byte2 i2 i3]
  | some i1, some i2, some i3, some i4 => [byte1 i1 i2, byte2 i2 i3, byte3 i3 i4]
  | _, _, _, _ => []

end Sys2Proof.Machine
end

