-- ==== Sys2Proof/Machine/Encoder.lean ====
section
/-! DEFINITION. The steps of the encoder engine (41_encoder.md R142 to R151). -/

namespace Sys2Proof.Machine

/-- One cell of `MemReadZ(IN.ENC:i, 3, n)`: at or beyond `LEN.ENC` no access is made and the value is 0
(20_memory.md R68, 41_encoder.md R144). -/
def encInput (s : State) (i : Nat) : Byte :=
  if i < s.enc.len then inputCell .enc s i else 0

/-- Parts 1 to 3 of the group step: fetch, assemble, regroup (R144 to R146). -/
def encFetch (s : State) : State :=
  let i := s.enc.idx
  { s with encGroup := some (encGroupOf (encInput s i) (encInput s (i + 1)) (encInput s (i + 2))) }

/-- Parts 4 and 5: the four output cells, mapped and selected (R147, R148). -/
def encCells (n o : Nat) (g : EncGroup) : List Byte :=
  [selectCell n o g.s1, selectCell n (o + 1) g.s2, selectCell n (o + 2) g.s3, selectCell n (o + 3) g.s4]

/-- Parts 6 and 7: store four cells and advance (R149, R150). -/
def encStore (s : State) : Host.Outcome State Fault Refusal :=
  match s.encGroup with
  | none => .next s
  | some g =>
    if fits s.cfg.outCapEnc (s.enc.oidx + 4) then
      .next (clearGroup .enc (s.setEngine .enc
        { s.enc with output := s.enc.output.writeCells s.enc.oidx (encCells s.enc.len s.enc.oidx g),
                     idx := s.enc.idx + 3, oidx := s.enc.oidx + 4 }))
    else .fault (.outputCellAbsent .enc)

/-- The group step, one atomic transition (R144 to R150). The cells it reads lie below `LEN.ENC`. -/
def encGroupStep (s : State) : Host.Outcome State Fault Refusal :=
  if fits s.cfg.inCapEnc (min (s.enc.idx + 3) s.enc.len) then encStore (encFetch s)
  else .fault (.inputCellAbsent .enc)

/-- The encoder's turn (R142): the group step, the completion step, or nothing when it is not BUSY (log entry 3). -/
def encStep (s : State) : Host.Outcome State Fault Refusal :=
  if s.enc.phase = .busy then
    if s.enc.idx < s.enc.len then encGroupStep s else .next (complete .enc s)
  else .next s

end Sys2Proof.Machine
end

