-- ==== Sys2Proof/Machine/Decoder.lean ====
section
/-! DEFINITION. The steps of the decoder engine (42_decoder.md R173 to R181). A group step fetches four characters
at `IDX.DEC`, decodes each and runs the instruction it stands for in the next lane, and stores what the lanes
formed. -/

namespace Sys2Proof.Machine

/-- Part 1 of the group step: fetch the four cells at `IDX.DEC` (R173). -/
def decFetch (s : State) : State :=
  let i := s.dec.idx
  let g : DecGroup :=
    { c1 := inputCell .dec s i, c2 := inputCell .dec s (i + 1), c3 := inputCell .dec s (i + 2),
      c4 := inputCell .dec s (i + 3), i1 := none, i2 := none, i3 := none, i4 := none, lane := 1 }
  { s with decGroup := some g }

/-- One cell in its lane: an invalid cell raises InvalidCharacter (R174), any other runs as the instruction it is
(R175 to R179). Once a lane has raised, the rest of the step is replaced (60_exceptions.md R227; log entry 23). -/
def runLane (c : Byte) (s : State) : Host.Outcome State Fault Refusal :=
  match s.decGroup with
  | none => .next s
  | some _ =>
    match decodeCell c with
    | .ok i => exec i s
    | .error _ => .next (raise .dec .invalidCharacter s)

/-- Part 8: store the group's bytes and advance (R180); nothing after a raise. -/
def decStore (s : State) : Host.Outcome State Fault Refusal :=
  match s.decGroup with
  | none => .next s
  | some g =>
    if fits s.cfg.outCapDec (s.dec.oidx + (groupBytes g).length) then
      .next (clearGroup .dec (s.setEngine .dec
        { s.dec with output := s.dec.output.writeCells s.dec.oidx (groupBytes g),
                     idx := s.dec.idx + 4, oidx := s.dec.oidx + (groupBytes g).length }))
    else .fault (.outputCellAbsent .dec)

/-- The group step, one atomic transition (R173 to R180). -/
def decGroupStep (s : State) : Host.Outcome State Fault Refusal :=
  if fits s.cfg.inCapDec (s.dec.idx + 4) then
    let i := s.dec.idx
    andThen (andThen (andThen (andThen
      (runLane (inputCell .dec s i) (decFetch s))
      (runLane (inputCell .dec s (i + 1))))
      (runLane (inputCell .dec s (i + 2))))
      (runLane (inputCell .dec s (i + 3))))
      decStore
  else .fault (.inputCellAbsent .dec)

/-- The decoder's turn (R173): the group step, the completion step, or nothing when it is not BUSY (log entry 3). -/
def decStep (s : State) : Host.Outcome State Fault Refusal :=
  if s.dec.phase = .busy then
    if s.dec.idx < s.dec.len then decGroupStep s else .next (complete .dec s)
  else .next s

/-- The turn of an engine. -/
def engineStep (e : EngineId) (s : State) : Host.Outcome State Fault Refusal :=
  match e with
  | .enc => encStep s
  | .dec => decStep s

end Sys2Proof.Machine
end

