-- ==== Sys2Proof/WellFormed.lean ====
section
/-! DEFINITION. Which terms the spec gives a meaning: instructions, parameters of an instance, host actions. -/

namespace Sys2Proof

/-- Every term of `Instr` is well-formed: the only operand of the opcode table is the one don't-care bit of NOP
(43_control.md R204), and its type admits just the values of that bit. -/
def Instr.wellFormed (_ : Instr) : Bool := true

/-- The condition of 00_scope.md R5 on `LW`: `2^LW > max(IN_CAP_e, OUT_CAP_e) + 4` for both engines. A bounded
`LW` therefore needs every capacity bounded. -/
def Config.wellFormed (c : Config) : Bool :=
  match c.lw with
  | none => true
  | some w =>
    [c.inCapEnc, c.outCapEnc, c.inCapDec, c.outCapDec].all fun cap =>
      match cap with
      | none => false
      | some n => n + 4 < 2 ^ w

/-- Whether the spec has this host action on this instance (43_control.md R200, R208, R209, R210): a length or
an index beyond the buffer cannot be expressed (93_implementation_defined.md U9). -/
def Machine.HostAction.wellFormed (cfg : Config) : Machine.HostAction → Bool
  | .writeLen e v => Machine.fits (Machine.inCap cfg e) v
  | .writeIn e i _ => Machine.fits (Machine.inCap cfg e) (i + 1)
  | .readOut e i => Machine.fits (Machine.outCap cfg e) (i + 1)
  | .cmd _ => true
  | .readStatus _ => true
  | .readLen _ => true
  | .readOlen _ => true
  | .writeStatus _ _ => true
  | .writeOlen _ _ => true
  | .reset => true

end Sys2Proof
end

