-- ==== Sys2Proof/Machine/HostPort.lean ====
section
/-! DEFINITION. The host's actions (43_control.md R200 to R210), each one atomic transition. -/

namespace Sys2Proof.Machine

/-- `Cmd(w)` (43_control.md R201): run the command; a reserved word is ignored (R205). -/
def hostCmd (w : Byte) (s : State) : Host.Outcome State Fault Refusal :=
  match decodeCommand w with
  | .ok i => exec i s
  | .error _ => .next s

/-- `WriteLen(e, v)` (R208): exists only up to the input buffer's capacity; ignored while BUSY. -/
def hostWriteLen (e : EngineId) (v : Nat) (s : State) : Host.Outcome State Fault Refusal :=
  if fits (inCap s.cfg e) v then
    if (s.engine e).phase = .busy then .next s
    else .next (s.setEngine e { s.engine e with len := v })
  else .refused (.lenBeyondCapacity e v)

/-- `WriteIn(e, i, c)` (R209): exists only inside the input buffer; ignored while BUSY. -/
def hostWriteIn (e : EngineId) (i : Nat) (c : Byte) (s : State) : Host.Outcome State Fault Refusal :=
  if fits (inCap s.cfg e) (i + 1) then
    if (s.engine e).phase = .busy then .next s
    else .next (s.setEngine e { s.engine e with input := (s.engine e).input.write i c })
  else .refused (.inIndexBeyondCapacity e i)

/-- A host read returns its value and changes nothing of the block (R207, R210). -/
def respond (r : Response) (s : State) : State := { s with responses := r :: s.responses }

/-- The valid result cell at index `i`, if there is one: `STATE.e = DONE` and `i < OLEN.e` (20_memory.md R73). -/
def validCell (e : EngineId) (i : Nat) (s : State) : Option Byte :=
  if (s.engine e).phase = .done ∧ i < (s.engine e).olen then (s.engine e).output.read i else none

/-- `ReadOut(e, i)` (R210): the engine's cell where it is valid, otherwise any value (20_memory.md R73, log entry
9). -/
def hostReadOut (e : EngineId) (i : Nat) (s : State) : Host.Outcome State Fault Refusal :=
  if fits (outCap s.cfg e) (i + 1) then
    match validCell e i s with
    | some c => .next (respond (.cell e i c) s)
    | none => .next { respond (.cell e i (Config.freeRead s.reads)) s with reads := s.reads + 1 }
  else .refused (.outIndexBeyondCapacity e i)

/-- One host action. Writes to the read-only registers STATUS and OLEN are ignored (30_encoding.md R92, R93). -/
def hostAct (a : HostAction) (s : State) : Host.Outcome State Fault Refusal :=
  match a with
  | .cmd w => hostCmd w s
  | .writeLen e v => hostWriteLen e v s
  | .writeIn e i c => hostWriteIn e i c s
  | .readStatus e => .next (respond (.status e (statusWord (s.engine e))) s)
  | .readLen e => .next (respond (.len e (s.engine e).len) s)
  | .readOlen e => .next (respond (.olen e (s.engine e).olen) s)
  | .readOut e i => hostReadOut e i s
  | .writeStatus _ _ => .next s
  | .writeOlen _ _ => .next s
  | .reset => .next (resetBlock s)

/-- One event of a run (60_exceptions.md R234). -/
def runEvent (ev : Event) (s : State) : Host.Outcome State Fault Refusal :=
  match ev with
  | .host a => hostAct a s
  | .engine e => engineStep e s

/-- With no event to come a BUSY engine still takes its step (70_reset_and_hazards.md R271), the encoder first
(log entry 2); with no engine BUSY the block is quiescent (43_control.md R215). -/
def runIdle (s : State) : Host.Outcome State Fault Refusal :=
  if s.enc.phase = .busy then encStep s else decStep s

/-- A sequence of events, stopping at the first fault or refusal. -/
def runEvents : List Event → State → Host.Outcome State Fault Refusal
  | [], s => .next s
  | ev :: evs, s => andThen (runEvent ev s) (runEvents evs)

end Sys2Proof.Machine
end

