-- ==== Sys2Proof/Machine/Step.lean ====
section
/-! DEFINITION. One step of the machine: the next event of the agenda, or a BUSY engine's own step (60_exceptions.md
R234, 70_reset_and_hazards.md R271; log entries 1 and 2). -/

namespace Sys2Proof.Machine

/-- One atomic transition. -/
def step (s : State) : Host.Outcome State Fault Refusal :=
  match s.agenda with
  | ev :: rest => runEvent ev { s with agenda := rest }
  | [] => runIdle s

/-- `s` with an instruction of the opcode table where the next step takes it: a command word at the command port,
a character in a group of the decoder (log entry 12). A word that is no character goes to the command port. -/
def State.withFetchWord (s : State) (nbits w : Nat) : State :=
  match decodeCell (firstWord nbits w) with
  | .ok _ => placeCell (firstWord nbits w) s
  | .error _ => placeCommand (firstWord nbits w) s

end Sys2Proof.Machine
end

