-- ==== Sys2Proof/Machine/Functions.lean ====
section
/-! DEFINITION. What the steps compute, in closed form: `enc` (41_encoder.md R152), `decgroup` (42_decoder.md
R182), `dec` (R183). The steps are the machine; these functions are what its runs are compared with. -/

namespace Sys2Proof.Machine

/-- `z(i)` of R152: the byte, or 0 beyond the end. -/
def zeroFill (b : List Byte) (i : Nat) : Byte :=
  match b[i]? with
  | some c => c
  | none => 0

/-- Cell `j` of `enc(b)` (R152): the slice `BUFg[23-6k : 18-6k]` of its own group. -/
def encCell (b : List Byte) (j : Nat) : Byte :=
  let g := j / 4
  let k := j % 4
  let buf := assemble (zeroFill b (3 * g)) (zeroFill b (3 * g + 1)) (zeroFill b (3 * g + 2))
  if j < encData b.length then alpha (buf.extractLsb' (18 - 6 * k) 6) else padCell

/-- `enc(b)` (R152): a sequence of `T(n)` cells. -/
def encText (b : List Byte) : List Byte := (List.range (encTotal b.length)).map (encCell b)

/-- `decgroup(c)` (R182); `none` is the rule's `Invalid`. -/
def decGroupOf (c1 c2 c3 c4 : Byte) : Option (List Byte) :=
  match inv c1, inv c2 with
  | some i1, some i2 =>
    if isPad c3 then
      if inSet65 c4 then some [byte1 i1 i2] else none
    else
      match inv c3 with
      | none => none
      | some i3 =>
        if isPad c4 then some [byte1 i1 i2, byte2 i2 i3]
        else
          match inv c4 with
          | none => none
          | some i4 => some [byte1 i1 i2, byte2 i2 i3, byte3 i3 i4]
  | _, _ => none

/-- The bytes of the groups of a text in order, or `none` where a group is Invalid (R183) or cells are left over. -/
def decGroups : List Byte → Option (List Byte)
  | [] => some []
  | c1 :: c2 :: c3 :: c4 :: rest =>
    match decGroupOf c1 c2 c3 c4, decGroups rest with
    | some y, some ys => some (y ++ ys)
    | _, _ => none
  | _ => none

/-- `dec(t)` (R183) for an output buffer of this capacity, in the order of 60_exceptions.md R226. -/
def decText (outCapDec : Option Nat) (t : List Byte) : Except Condition (List Byte) :=
  if t.length % 4 ≠ 0 then .error .malformedLength
  else if ¬ fits outCapDec (decEstimate t.length) then .error .allocationFailure
  else
    match decGroups t with
    | none => .error .invalidCharacter
    | some y => .ok y

end Sys2Proof.Machine
end

