-- ==== Sys2Proof/Machine/Calls.lean ====
section
/-! DEFINITION. The pseudo-operations `encode(b)`, `decode(t)` and the driver's round trip as host actions
(43_control.md R211 to R213). Waiting until STATUS leaves BUSY is written as the engine's turns. -/

namespace Sys2Proof.Machine

/-- `WriteIn(e, i, b[i])` for every cell from index `i` on (R211, R212). -/
def writeMessage (e : EngineId) : Nat → List Byte → List Event
  | _, [] => []
  | i, c :: cs => .host (.writeIn e i c) :: writeMessage e (i + 1) cs

/-- The START word of an engine (R211, R212). -/
def startWord : EngineId → Byte
  | .enc => 0x01
  | .dec => 0x03

/-- The group size in input cells, `ENC_GROUP_IN` and `DEC_GROUP_IN` (00_scope.md R5). -/
def groupIn : EngineId → Nat
  | .enc => 3
  | .dec => 4

/-- Group steps and the completion step of an operation on `n` cells (70_reset_and_hazards.md R272). -/
def stepCount (e : EngineId) (n : Nat) : Nat := ceilDiv n (groupIn e) + 1

/-- The call of an engine on a message: write it, write its length, START, and wait (R211, R212). -/
def callEvents (e : EngineId) (msg : List Byte) : List Event :=
  writeMessage e 0 msg ++ [.host (.writeLen e msg.length), .host (.cmd (startWord e))] ++
    List.replicate (stepCount e msg.length) (.engine e)

/-- What the host reads of `OUT.e[0..OLEN.e)` once STATUS shows DONE; `none` for a cell without a valid value. -/
def readCells (e : EngineId) (s : State) : Option (List Byte) :=
  (List.range (s.engine e).olen).mapM (fun j => validCell e j s)

/-- What a call returns (R211, R212): the output, or the condition named by STATUS, or nothing while the
operation is not over. -/
def callResult (e : EngineId) (s : State) : Option (Except Condition (List Byte)) :=
  match (s.engine e).phase, (s.engine e).err with
  | .done, _ => (readCells e s).map .ok
  | .error, some x => some (.error x)
  | _, _ => none

/-- The driver's round trip (R213): `t <- encode(b)`, then `decode(t)`; the host carries the text. -/
def roundTrip (b : List Byte) (s : State) : Option (Except Condition (List Byte)) :=
  match runEvents (callEvents .enc b) s with
  | .next t =>
    match callResult .enc t with
    | some (.ok text) =>
      match runEvents (callEvents .dec text) t with
      | .next u => callResult .dec u
      | _ => none
    | r => r
  | _ => none

end Sys2Proof.Machine
end

