-- ==== Sys2Proof/Safety.lean ====
section
/-! DEFINITION. What holds at every step boundary (10_state.md R36), and the words claims are stated in. -/

namespace Sys2Proof.Machine

/-- What holds of either engine at every step boundary: 10_state.md R36 (a), (b), R24, R26, R29; in DONE the
result lies inside the output buffer and every cell of it has been written (20_memory.md R73). -/
structure EngineInv (cfg : Config) (e : EngineId) (x : Engine) : Prop where
  inputWf : x.input.wf
  outputWf : x.output.wf
  inputInside : ∀ p ∈ x.input, fits (inCap cfg e) (p.1 + 1) = true
  outputInside : ∀ p ∈ x.output, fits (outCap cfg e) (p.1 + 1) = true
  errIff : x.err ≠ none ↔ x.phase = .error
  noResult : x.phase ≠ .done → x.olen = 0
  lenInside : fits (inCap cfg e) x.len = true
  resultInside : x.phase = .done → fits (outCap cfg e) x.olen = true
  resultWritten : x.phase = .done → ∀ j < x.olen, (x.output.read j).isSome = true

/-- 10_state.md R36 (c) for a BUSY encoder, and R27's bound on the index. -/
structure EncBusy (cfg : Config) (x : Engine) : Prop where
  idxAligned : x.idx % 3 = 0
  idxBound : x.idx < x.len + 3
  oidxIs : x.oidx = 4 * (x.idx / 3)
  room : fits cfg.outCapEnc (encTotal x.len) = true
  written : ∀ j < x.oidx, (x.output.read j).isSome = true

/-- 10_state.md R36 (c) for a BUSY decoder. -/
structure DecBusy (cfg : Config) (x : Engine) : Prop where
  idxAligned : x.idx % 4 = 0
  lenAligned : x.len % 4 = 0
  idxBound : x.idx ≤ x.len
  oidxBound : x.oidx ≤ 3 * (x.idx / 4)
  room : fits cfg.outCapDec (decEstimate x.len) = true
  written : ∀ j < x.oidx, (x.output.read j).isSome = true

/-- The invariant of the block at every step boundary (10_state.md R36, R22, R20). -/
structure State.Inv (s : State) : Prop where
  enc : EngineInv s.cfg .enc s.enc
  dec : EngineInv s.cfg .dec s.dec
  encErr : s.enc.err = none ∨ s.enc.err = some .allocationFailure
  encBusy : s.enc.phase = .busy → EncBusy s.cfg s.enc
  decBusy : s.dec.phase = .busy → DecBusy s.cfg s.dec
  encGroup : s.encGroup = none
  decGroup : s.decGroup = none

/-- Every length and index register holds a value of `LW` bits (00_scope.md R5, 10_state.md R24, R25, R27, R28). -/
structure Engine.FitsLW (cfg : Config) (x : Engine) : Prop where
  len : fitsLW cfg x.len = true
  olen : fitsLW cfg x.olen = true
  idx : fitsLW cfg x.idx = true
  oidx : fitsLW cfg x.oidx = true

/-- `t` is `s` after the error entry of 60_exceptions.md R227 in engine `e` with condition `x`: the indices are some
values of `LW` bits, and nothing is said of which (R227: unspecified; log entry 6). -/
def ErrorEntered (e : EngineId) (x : Condition) (s t : State) : Prop :=
  ∃ i o d : Nat, fitsLW s.cfg i = true ∧ fitsLW s.cfg o = true ∧
    t = clearGroup e (s.setEngine e
      { s.engine e with phase := .error, err := some x, olen := 0, output := [], idx := i, oidx := o, draws := d })

/-- `t` is `s` after the completion step of engine `e` (41_encoder.md R151, 42_decoder.md R181): the indices are some
values of `LW` bits, and nothing is said of which (10_state.md R27; log entry 6). -/
def Completed (e : EngineId) (s t : State) : Prop :=
  ∃ i o d : Nat, fitsLW s.cfg i = true ∧ fitsLW s.cfg o = true ∧
    t = s.setEngine e { s.engine e with phase := .done, olen := (s.engine e).oidx, idx := i, oidx := o, draws := d }

/-- Run an instruction in the next lane of the decoder's group, if the group step has not been ended by an error
(60_exceptions.md R227: the error entry replaces the rest of the step). -/
def laneThen (i : Instr) (s : State) : Host.Outcome State Fault Refusal :=
  match s.decGroup with
  | none => .next s
  | some _ => exec i s

/-- The block is quiescent: neither engine is BUSY (43_control.md R215). -/
def State.quiescent (s : State) : Prop := s.enc.phase ≠ .busy ∧ s.dec.phase ≠ .busy

/-- `step` run `k` times, stopping at a fault or a refusal. -/
def runSteps : Nat → State → Host.Outcome State Fault Refusal
  | 0, s => .next s
  | k + 1, s => andThen (step s) (runSteps k)

/-- The turn of one engine taken `k` times. -/
def runEngine (e : EngineId) : Nat → State → Host.Outcome State Fault Refusal
  | 0, s => .next s
  | k + 1, s => andThen (engineStep e s) (runEngine e k)

end Sys2Proof.Machine
end

