-- ==== Sys2Proof/Certificates/Slice0/Obligations.lean ====
section
/-! DEFINITION. The statements for the provers. Each docstring names the rules of spec/ it formalises. -/

open Sys2Proof Sys2Proof.Machine

/-! ### Encodings and the alphabet -/

/-- 30_encoding.md R90 to R105: decoding inverts encoding for every instruction, whatever follows it, and a list that
decodes to an instruction begins with that instruction's word: no bit of a word is dropped. -/
def Obligations.DecodeAndEncodeAreInverse : Prop :=
  (∀ (i : Instr) (rest : List Byte), i.wellFormed = true → decode (encode i ++ rest) = .ok (i, rest)) ∧
  (∀ (bytes rest : List Byte) (i : Instr), decode bytes = .ok (i, rest) → bytes = encode i ++ rest)

/-- 30_encoding.md R91: the command word decodes completely, and each word does what its row says. -/
def Obligations.CommandDecodeIsComplete : Prop :=
  ∀ w : Byte,
    (w = 0x01 → decodeCommand w = .ok .encode) ∧ (w = 0x03 → decodeCommand w = .ok .decode) ∧
    (w = 0x00 → decodeCommand w = .ok (.nop 0)) ∧ (w = 0x02 → decodeCommand w = .ok (.nop 1)) ∧
    (0x04 ≤ w → decodeCommand w = .error (.reservedCommand w)) ∧
    ∀ s : State, hostAct (.cmd w) s =
      if w = 0x01 then exec .encode s else if w = 0x03 then exec .decode s else .next s

/-- 30_encoding.md R91, R98, R99: words written out from the spec decode to the rows they stand for. -/
def Obligations.ListedWordsDecode : Prop :=
  decodeTableWord 8 0b00000001 = some .encode ∧ decodeTableWord 8 0b00000011 = some .decode ∧
  decodeTableWord 8 0b00000000 = some (.nop 0) ∧ decodeTableWord 8 0b00000010 = some (.nop 1) ∧
  decodeTableWord 8 0b01000001 = some .sym0 ∧ decodeTableWord 8 0b01011010 = some .sym25 ∧
  decodeTableWord 8 0b01100001 = some .sym26 ∧ decodeTableWord 8 0b01111010 = some .sym51 ∧
  decodeTableWord 8 0b00110000 = some .sym52 ∧ decodeTableWord 8 0b00111001 = some .sym61 ∧
  decodeTableWord 8 0b00101011 = some .sym62 ∧ decodeTableWord 8 0b00101111 = some .sym63 ∧
  decodeTableWord 8 0b00111101 = some .symPad ∧ decodeTableWord 8 0b01011111 = none

/-- 40_alphabet_lookup.md R120: the forward map, by the five ranges of its index. -/
def Obligations.AlphaFollowsItsRanges : Prop :=
  ∀ k : Index,
    (k.toNat ≤ 25 → (alpha k).toNat = 0x41 + k.toNat) ∧
    (26 ≤ k.toNat ∧ k.toNat ≤ 51 → (alpha k).toNat = 0x61 + (k.toNat - 26)) ∧
    (52 ≤ k.toNat ∧ k.toNat ≤ 61 → (alpha k).toNat = 0x30 + (k.toNat - 52)) ∧
    (k.toNat = 62 → alpha k = 0x2B) ∧ (k.toNat = 63 → alpha k = 0x2F)

/-- 40_alphabet_lookup.md R121: the inverse map, by the ranges of the cell; every other cell fails. -/
def Obligations.InvFollowsItsRanges : Prop :=
  ∀ c : Byte,
    (0x41 ≤ c.toNat ∧ c.toNat ≤ 0x5A → ∃ k, inv c = some k ∧ k.toNat = c.toNat - 0x41) ∧
    (0x61 ≤ c.toNat ∧ c.toNat ≤ 0x7A → ∃ k, inv c = some k ∧ k.toNat = c.toNat - 0x61 + 26) ∧
    (0x30 ≤ c.toNat ∧ c.toNat ≤ 0x39 → ∃ k, inv c = some k ∧ k.toNat = c.toNat - 0x30 + 52) ∧
    (c = 0x2B → inv c = some 62) ∧ (c = 0x2F → inv c = some 63) ∧
    (¬(0x41 ≤ c.toNat ∧ c.toNat ≤ 0x5A) → ¬(0x61 ≤ c.toNat ∧ c.toNat ≤ 0x7A) →
      ¬(0x30 ≤ c.toNat ∧ c.toNat ≤ 0x39) → c ≠ 0x2B → c ≠ 0x2F → inv c = none)

/-- 40_alphabet_lookup.md R122: the two maps are inverse to each other, and exactly 64 cells have an index. -/
def Obligations.AlphaAndInvAreInverse : Prop :=
  (∀ k : Index, inv (alpha k) = some k) ∧
  (∀ (c : Byte) (k : Index), inv c = some k → alpha k = c) ∧
  ((List.range 256).countP fun n => (inv (BitVec.ofNat 8 n)).isSome) = 64

/-- 40_alphabet_lookup.md R123, R124 and the ranges of 30_encoding.md R100: the padding test, membership in the
65-symbol set, and the 191 invalid cells. -/
def Obligations.SixtyFiveSymbolSet : Prop :=
  (∀ c : Byte, isPad c = true ↔ c = 0x3D) ∧
  (∀ c : Byte, inSet65 c = true ↔ (inv c ≠ none ∨ isPad c = true)) ∧
  (∀ c : Byte, inSet65 c = false ↔
    c.toNat ≤ 0x2A ∨ (0x2C ≤ c.toNat ∧ c.toNat ≤ 0x2E) ∨ (0x3A ≤ c.toNat ∧ c.toNat ≤ 0x3C) ∨
    (0x3E ≤ c.toNat ∧ c.toNat ≤ 0x40) ∨ (0x5B ≤ c.toNat ∧ c.toNat ≤ 0x60) ∨ 0x7B ≤ c.toNat) ∧
  ((List.range 256).countP fun n => inSet65 (BitVec.ofNat 8 n)) = 65 ∧
  ((List.range 256).countP fun n => !inSet65 (BitVec.ofNat 8 n)) = 191

/-! ### Lengths and operand assembly -/

/-- 41_encoder.md R141 and 42_decoder.md R171: the length functions are the stated ceilings, and the padding count is
`(3 - n mod 3) mod 3`. -/
def Obligations.LengthFunctions : Prop :=
  (∀ n : Nat, ∃ q : Nat, encTotal n = 4 * q ∧ n ≤ 3 * q ∧ 3 * q < n + 3) ∧
  (∀ n : Nat, 4 * n ≤ 3 * encData n ∧ 3 * encData n < 4 * n + 3) ∧
  (∀ n : Nat, encData n + encPad n = encTotal n ∧ encPad n = (3 - n % 3) % 3) ∧
  (∀ m : Nat, 6 * m ≤ 8 * decEstimate m ∧ 8 * decEstimate m < 6 * m + 8) ∧
  (∀ m : Nat, m % 4 = 0 → decEstimate m = 3 * m / 4)

/-- 41_encoder.md R145, R146: the group buffer has the first cell in its top byte, and the four symbols are its four
slices from the top. -/
def Obligations.RegroupTakesTheFourSlices : Prop :=
  ∀ b1 b2 b3 : Byte,
    let g := encGroupOf b1 b2 b3
    g.buf.toNat = b1.toNat * 65536 + b2.toNat * 256 + b3.toNat ∧
    g.buf.extractLsb' 16 8 = b1 ∧ g.buf.extractLsb' 8 8 = b2 ∧ g.buf.extractLsb' 0 8 = b3 ∧
    g.s1 = g.buf.extractLsb' 18 6 ∧ g.s2 = g.buf.extractLsb' 12 6 ∧
    g.s3 = g.buf.extractLsb' 6 6 ∧ g.s4 = g.buf.extractLsb' 0 6

/-- 30_encoding.md R97: the three output bytes by the document's formulas over natural numbers, none of which is
truncated, and the same bytes as slices of `G`. -/
def Obligations.BytesAreSlicesOfTheIndices : Prop :=
  ∀ i1 i2 i3 i4 : Index,
    let G : G24 := i1 ++ i2 ++ i3 ++ i4
    (byte1 i1 i2).toNat = (i1.toNat <<< 2 ||| i2.toNat >>> 4) ∧
    (byte2 i2 i3).toNat = ((i2.toNat &&& 0xF) <<< 4 ||| i3.toNat >>> 2) ∧
    (byte3 i3 i4).toNat = ((i3.toNat &&& 0x3) <<< 6 ||| i4.toNat) ∧
    byte1 i1 i2 = G.extractLsb' 16 8 ∧ byte2 i2 i3 = G.extractLsb' 8 8 ∧ byte3 i3 i4 = G.extractLsb' 0 8

/-- 42_decoder.md R185: the decoder's bytes invert the encoder's bit-packing. -/
def Obligations.BytesInvertRegrouping : Prop :=
  ∀ b1 b2 b3 : Byte,
    let g := encGroupOf b1 b2 b3
    byte1 g.s1 g.s2 = b1 ∧ byte2 g.s2 g.s3 = b2 ∧ byte3 g.s3 g.s4 = b3

/-! ### The commands -/

/-- 41_encoder.md R143: ENCODE to an encoder that is not BUSY takes the START transition: it begins the operation when
the output buffer has room for `T(n)` cells, and raises AllocationFailure when it has not. -/
def Obligations.EncodeStartsTheEncoder : Prop :=
  ∀ s : State, s.enc.phase ≠ .busy →
    (fits s.cfg.outCapEnc (encTotal s.enc.len) = true →
      exec .encode s = .next { s with
        enc := { s.enc with err := none, olen := 0, idx := 0, oidx := 0, phase := .busy } }) ∧
    (fits s.cfg.outCapEnc (encTotal s.enc.len) = false →
      ∃ t, exec .encode s = .next t ∧ ErrorEntered .enc .allocationFailure s t)

/-- 42_decoder.md R172: DECODE to a decoder that is not BUSY tests the length first, then the output buffer, and only
then begins the operation. -/
def Obligations.DecodeStartsTheDecoder : Prop :=
  ∀ s : State, s.dec.phase ≠ .busy →
    (s.dec.len % 4 ≠ 0 → ∃ t, exec .decode s = .next t ∧ ErrorEntered .dec .malformedLength s t) ∧
    (s.dec.len % 4 = 0 → fits s.cfg.outCapDec (decEstimate s.dec.len) = false →
      ∃ t, exec .decode s = .next t ∧ ErrorEntered .dec .allocationFailure s t) ∧
    (s.dec.len % 4 = 0 → fits s.cfg.outCapDec (decEstimate s.dec.len) = true →
      exec .decode s = .next { s with
        dec := { s.dec with err := none, olen := 0, idx := 0, oidx := 0, phase := .busy } })

/-- 43_control.md R206: a START to a BUSY engine is lost and the running operation continues unchanged. -/
def Obligations.StartWhileBusyIsLost : Prop :=
  ∀ s : State, (s.enc.phase = .busy → exec .encode s = .next s) ∧ (s.dec.phase = .busy → exec .decode s = .next s)

/-- 43_control.md R204: NOP, in both its words, changes nothing. -/
def Obligations.NopChangesNothing : Prop :=
  decodeCommand 0x00 = .ok (.nop 0) ∧ decodeCommand 0x02 = .ok (.nop 1) ∧
  ∀ (eng : BitVec 1) (s : State), exec (.nop eng) s = .next s

/-- 43_control.md R205: a reserved command word changes no state of either engine and leaves no record. -/
def Obligations.ReservedCommandIsIgnored : Prop :=
  ∀ (w : Byte) (s : State), w.extractLsb' 2 6 ≠ 0#6 → hostAct (.cmd w) s = .next s

/-- 43_control.md R201 and 10_state.md: the frame of ENCODE, DECODE and NOP. A command addresses one engine and never
touches the other; `LEN` and `IN` stay; OUT stays unless the command raises an error, which makes all of it
unspecified. -/
def Obligations.CommandFrame : Prop :=
  ∀ s t : State,
    (∀ eng, exec (.nop eng) s = .next t → t = s) ∧
    (exec .encode s = .next t →
      t.dec = s.dec ∧ t.decGroup = s.decGroup ∧ t.enc.len = s.enc.len ∧
      (∀ a, t.enc.input.read a = s.enc.input.read a) ∧
      (t.enc.phase ≠ .error → t.encGroup = s.encGroup ∧ ∀ a, t.enc.output.read a = s.enc.output.read a) ∧
      t.cfg = s.cfg ∧ t.agenda = s.agenda ∧ t.responses = s.responses ∧ t.reads = s.reads ∧ t.epoch = s.epoch) ∧
    (exec .decode s = .next t →
      t.enc = s.enc ∧ t.encGroup = s.encGroup ∧ t.dec.len = s.dec.len ∧
      (∀ a, t.dec.input.read a = s.dec.input.read a) ∧
      (t.dec.phase ≠ .error → t.decGroup = s.decGroup ∧ ∀ a, t.dec.output.read a = s.dec.output.read a) ∧
      t.cfg = s.cfg ∧ t.agenda = s.agenda ∧ t.responses = s.responses ∧ t.reads = s.reads ∧ t.epoch = s.epoch)

/-! ### The characters in the decoder's lanes -/

/-- 42_decoder.md R175 to R179: SYM_0 to SYM_63 (`symbolOf k` is the row of index `k`, whose word is `ALPHA(k)`). In
lane 1, 2 or 3 the character's index is formed; in lane 4 it is formed unless lane 3 held padding. -/
def Obligations.SymbolFormsItsIndex : Prop :=
  ∀ (k : Index) (s : State) (g : DecGroup), s.decGroup = some g →
    word (symbolOf k) = alpha k ∧
    (g.lane = 1 → exec (symbolOf k) s = .next { s with decGroup := some { g with i1 := some k, lane := 2 } }) ∧
    (g.lane = 2 → exec (symbolOf k) s = .next { s with decGroup := some { g with i2 := some k, lane := 3 } }) ∧
    (g.lane = 3 → exec (symbolOf k) s = .next { s with decGroup := some { g with i3 := some k, lane := 4 } }) ∧
    (g.lane = 4 → isPad g.c3 = false →
      exec (symbolOf k) s = .next { s with decGroup := some { g with i4 := some k, lane := 5 } }) ∧
    (g.lane = 4 → isPad g.c3 = true → exec (symbolOf k) s = .next { s with decGroup := some { g with lane := 5 } })

/-- Every instruction is a command, a row SYM_k or SYM_PAD, so that a statement about `symbolOf k` is one about all of
SYM_0 to SYM_63. -/
def Obligations.EveryInstructionIsCommandOrCharacter : Prop :=
  (∀ i : Instr, i = .encode ∨ i = .decode ∨ (∃ eng, i = .nop eng) ∨ (∃ k, i = symbolOf k) ∨ i = .symPad) ∧
  (∀ k k' : Index, symbolOf k = symbolOf k' → k = k')

/-- 42_decoder.md R177 to R179: SYM_PAD in lane 3 or 4 forms no index. -/
def Obligations.PaddingFormsNoIndex : Prop :=
  ∀ (s : State) (g : DecGroup), s.decGroup = some g →
    (g.lane = 3 → exec .symPad s = .next { s with decGroup := some { g with lane := 4 } }) ∧
    (g.lane = 4 → exec .symPad s = .next { s with decGroup := some { g with lane := 5 } })

/-- 42_decoder.md R175 (90_conflicts.md C4): SYM_PAD in lane 1 or 2 raises InvalidCharacter. -/
def Obligations.PaddingInTheFirstTwoLanesRaises : Prop :=
  ∀ (s : State) (g : DecGroup), s.decGroup = some g → g.lane = 1 ∨ g.lane = 2 →
    ∃ t, exec .symPad s = .next t ∧ ErrorEntered .dec .invalidCharacter s t

/-- The frame of the sixty-five characters: nothing but the decoder's group registers changes, and the decoder itself
only where padding in lane 1 or 2 raises; outside a group step nothing changes at all (log entry 4). -/
def Obligations.CharacterFrame : Prop :=
  ∀ (i : Instr) (s t : State), i = .symPad ∨ (∃ k, i = symbolOf k) → exec i s = .next t →
    t.enc = s.enc ∧ t.encGroup = s.encGroup ∧ t.cfg = s.cfg ∧ t.agenda = s.agenda ∧
    t.responses = s.responses ∧ t.reads = s.reads ∧ t.epoch = s.epoch ∧
    (∀ a, t.dec.input.read a = s.dec.input.read a) ∧ t.dec.len = s.dec.len ∧
    (s.decGroup = none → t = s) ∧
    (i ≠ .symPad ∨ (∀ g, s.decGroup = some g → g.lane ≠ 1 ∧ g.lane ≠ 2) →
      t.dec = s.dec ∧ ∀ a, t.dec.output.read a = s.dec.output.read a)

/-! ### The engines' steps -/

/-- 41_encoder.md R144 to R150: the encoder's group step. Output position `o + j` gets the alphabet character of slice
`j` of the zero-filled group if it is below `D(n)`, and `=` otherwise; no other cell and no other state changes. -/
def Obligations.EncoderGroupStep : Prop :=
  ∀ s : State, s.enc.phase = .busy → s.enc.idx < s.enc.len →
    fits s.cfg.inCapEnc s.enc.len = true → fits s.cfg.outCapEnc (s.enc.oidx + 4) = true →
    ∃ out : Memory,
      engineStep .enc s = .next { s with
        encGroup := none,
        enc := { s.enc with idx := s.enc.idx + 3, oidx := s.enc.oidx + 4, output := out } } ∧
      (∀ j, j < 4 → out.read (s.enc.oidx + j) = some
        (if s.enc.oidx + j < encData s.enc.len then
          alpha ((assemble (zeroFill (message .enc s) s.enc.idx) (zeroFill (message .enc s) (s.enc.idx + 1))
            (zeroFill (message .enc s) (s.enc.idx + 2))).extractLsb' (18 - 6 * j) 6)
        else 0x3D)) ∧
      (∀ a, a < s.enc.oidx ∨ s.enc.oidx + 4 ≤ a → out.read a = s.enc.output.read a)

/-- 41_encoder.md R151: the completion step reports `OIDX.ENC`, which is then `T(LEN.ENC)`; and after it the engine has
no step until the next START, whatever events come before that. That the turn of an engine without a step changes
nothing is the model's reading (log entry 3), and the indices are free values (log entry 6). -/
def Obligations.EncoderCompletion : Prop :=
  ∀ s : State, s.enc.phase = .busy → s.enc.len ≤ s.enc.idx →
    (∃ t, engineStep .enc s = .next t ∧ Completed .enc s t ∧
      ∀ (evs : List Event) (u : State), (∀ ev ∈ evs, ev ≠ .host (.cmd 0x01)) → runEvents evs t = .next u →
        u.enc.phase ≠ .busy ∧ engineStep .enc u = .next u) ∧
    (s.Inv → s.enc.oidx = encTotal s.enc.len)

/-- 42_decoder.md R181: the completion step reports the bytes actually written, `OIDX.DEC`. -/
def Obligations.DecoderCompletion : Prop :=
  ∀ s : State, s.dec.phase = .busy → s.dec.len ≤ s.dec.idx →
    ∃ t, engineStep .dec s = .next t ∧ Completed .dec s t

/-- 42_decoder.md R182: the group step as one function, by the rule's five cases. -/
def Obligations.DecodedGroupByCases : Prop :=
  ∀ c1 c2 c3 c4 : Byte,
    (inSet65 c1 = false ∨ inSet65 c2 = false ∨ inSet65 c3 = false ∨ inSet65 c4 = false →
      decGroupOf c1 c2 c3 c4 = none) ∧
    (isPad c1 = true ∨ isPad c2 = true → decGroupOf c1 c2 c3 c4 = none) ∧
    ∀ i1 i2 : Index, inv c1 = some i1 → inv c2 = some i2 →
      (isPad c3 = true → inSet65 c4 = true → decGroupOf c1 c2 c3 c4 = some [byte1 i1 i2]) ∧
      ∀ i3 : Index, inv c3 = some i3 →
        (isPad c4 = true → decGroupOf c1 c2 c3 c4 = some [byte1 i1 i2, byte2 i2 i3]) ∧
        ∀ i4 : Index, inv c4 = some i4 →
          decGroupOf c1 c2 c3 c4 = some [byte1 i1 i2, byte2 i2 i3, byte3 i3 i4]

/-- 42_decoder.md R173 to R180, 60_exceptions.md R227: the decoder's group step, lane by lane as the machine runs it,
is the function `decgroup` on the four cells at `IDX.DEC`: an Invalid group raises InvalidCharacter with no cell
written, any other stores its bytes at `OIDX.DEC` and advances. -/
def Obligations.DecoderGroupStep : Prop :=
  ∀ s : State, s.dec.phase = .busy → s.dec.idx < s.dec.len → fits s.cfg.inCapDec (s.dec.idx + 4) = true →
    let cell := fun j => inputCell .dec s (s.dec.idx + j)
    (decGroupOf (cell 0) (cell 1) (cell 2) (cell 3) = none →
      ∃ t, engineStep .dec s = .next t ∧ ErrorEntered .dec .invalidCharacter s t) ∧
    (∀ y, decGroupOf (cell 0) (cell 1) (cell 2) (cell 3) = some y →
      y.length = groupWidth (cell 2) (cell 3) ∧
      (fits s.cfg.outCapDec (s.dec.oidx + y.length) = true →
        ∃ out : Memory,
          engineStep .dec s = .next { s with
            decGroup := none,
            dec := { s.dec with idx := s.dec.idx + 4, oidx := s.dec.oidx + y.length, output := out } } ∧
          (∀ j, j < y.length → out.read (s.dec.oidx + j) = y[j]?) ∧
          (∀ a, a < s.dec.oidx ∨ s.dec.oidx + y.length ≤ a → out.read a = s.dec.output.read a)))

/-- 41_encoder.md R142, 42_decoder.md R173, 43_control.md R215: an engine has a step exactly while it is BUSY. A turn
given to an engine that is not BUSY changes nothing (log entry 3, the model's reading), and a BUSY engine's turn always has a next state, in which the
engine has moved. -/
def Obligations.EngineStepsExactlyWhileBusy : Prop :=
  ∀ (e : EngineId) (s : State),
    ((s.engine e).phase ≠ .busy → engineStep e s = .next s) ∧
    (s.Inv → (s.engine e).phase = .busy →
      ∃ t, engineStep e s = .next t ∧
        ((t.engine e).phase ≠ .busy ∨ (s.engine e).idx < (t.engine e).idx))

/-- 20_memory.md R76, 10_state.md R20: no step of one engine reads or writes any state of the other. -/
def Obligations.EnginesAreIndependent : Prop :=
  (∀ s t : State, engineStep .enc s = .next t → t.dec = s.dec ∧ t.decGroup = s.decGroup) ∧
  (∀ s t : State, engineStep .dec s = .next t → t.enc = s.enc ∧ t.encGroup = s.encGroup) ∧
  (∀ (e : EngineId) (s s' t : State), s.cfg = s'.cfg → s.epoch = s'.epoch → s.engine e = s'.engine e →
    engineStep e s = .next t → ∃ t', engineStep e s' = .next t' ∧ t'.engine e = t.engine e)

/-- 20_memory.md R68, 10_state.md R35: an engine reads only the message. Whatever its input buffer holds at or beyond
`LEN.e` cannot influence its turn. -/
def Obligations.OnlyTheMessageIsRead : Prop :=
  (∀ (s t : State) (m : Memory), (∀ i, i < s.enc.len → m.read i = s.enc.input.read i) →
    engineStep .enc s = .next t →
    engineStep .enc { s with enc := { s.enc with input := m } } =
      .next { t with enc := { t.enc with input := m } }) ∧
  (∀ (s t : State) (m : Memory), s.dec.idx % 4 = 0 → s.dec.len % 4 = 0 →
    (∀ i, i < s.dec.len → m.read i = s.dec.input.read i) →
    engineStep .dec s = .next t →
    engineStep .dec { s with dec := { s.dec with input := m } } =
      .next { t with dec := { t.dec with input := m } })

/-! ### Errors -/

/-- 60_exceptions.md R227: the error entry, in either engine and for each condition. The other engine, `LEN.e` and
`IN.e` stay, and no cell of `OUT.e` is listed (unspecified, log entry 8). It replaces the rest of the step: after it
neither a lane nor a store of the group step does anything. And the engine has no further step: its turn changes
nothing (log entry 3). -/
def Obligations.ErrorEntry : Prop :=
  ∀ (e : EngineId) (x : Condition) (s : State),
    ErrorEntered e x s (raise e x s) ∧
    ((raise e x s).engine e).phase = .error ∧ ((raise e x s).engine e).err = some x ∧
    ((raise e x s).engine e).olen = 0 ∧
    (∀ a, ((raise e x s).engine e).output.read a = none) ∧
    ((raise e x s).engine e).len = (s.engine e).len ∧ ((raise e x s).engine e).input = (s.engine e).input ∧
    (∀ e', e' ≠ e → (raise e x s).engine e' = s.engine e') ∧
    (∀ c, runLane c (raise .dec x s) = .next (raise .dec x s)) ∧
    decStore (raise .dec x s) = .next (raise .dec x s) ∧
    encStore (raise .enc x s) = .next (raise .enc x s) ∧
    engineStep e (raise e x s) = .next (raise e x s)

/-- 60_exceptions.md R230, 10_state.md R21: ERROR with its code, and DONE with its result, persist until the next START
of that engine or a Reset: no other event changes `STATE.e`, `ERR.e`, `OLEN.e` or `OUT.e`. -/
def Obligations.EndedOperationPersists : Prop :=
  ∀ (e : EngineId) (ev : Event) (s t : State),
    (s.engine e).phase = .error ∨ (s.engine e).phase = .done →
    ev ≠ .host .reset → ev ≠ .host (.cmd (startWord e)) → runEvent ev s = .next t →
    (t.engine e).phase = (s.engine e).phase ∧ (t.engine e).err = (s.engine e).err ∧
    (t.engine e).olen = (s.engine e).olen ∧ ∀ a, (t.engine e).output.read a = (s.engine e).output.read a

/-! ### The host's reads and writes -/

/-- 43_control.md R207: `ReadStatus` returns `ERR ++ STATE` in the STATUS layout, in every state, and changes nothing. -/
def Obligations.ReadStatusIsExact : Prop :=
  ∀ (e : EngineId) (s : State), ∃ w : Byte,
    hostAct (.readStatus e) s = .next { s with responses := .status e w :: s.responses } ∧
    w.extractLsb' 4 4 = 0#4 ∧
    w.extractLsb' 2 2 = (match (s.engine e).err with
      | none => 0#2 | some .invalidCharacter => 1#2 | some .malformedLength => 2#2
      | some .allocationFailure => 3#2) ∧
    w.extractLsb' 0 2 = (match (s.engine e).phase with
      | .idle => 0#2 | .busy => 1#2 | .done => 2#2 | .error => 3#2)

/-- 30_encoding.md R92, R93: the only STATUS words ever read, and writes to the read-only registers STATUS and OLEN are
ignored. That these writes are host actions beside R200's list is the model's reading (log entry 17). -/
def Obligations.StatusWordsEverRead : Prop :=
  (∀ s : State, s.Inv →
    statusWord s.enc ∈ [0x00#8, 0x01#8, 0x02#8, 0x0F#8] ∧
    statusWord s.dec ∈ [0x00#8, 0x01#8, 0x02#8, 0x07#8, 0x0B#8, 0x0F#8]) ∧
  (∀ (e : EngineId) (w : Byte) (s : State), hostAct (.writeStatus e w) s = .next s) ∧
  (∀ (e : EngineId) (v : Nat) (s : State), hostAct (.writeOlen e v) s = .next s)

/-- 43_control.md R210, 20_memory.md R73: the reads of `LEN`, `OLEN` and `OUT` return what the rules say and change no
state of the block. An output cell is exact in DONE below `OLEN`; every other read returns some value, and nothing is
said of which (log entry 9). That `ReadLen` is exact while BUSY too is the model's reading of R210 against R71's table
(log entry 18). -/
def Obligations.ReadsReturnAndChangeNothing : Prop :=
  ∀ (e : EngineId) (s : State),
    hostAct (.readLen e) s = .next { s with responses := .len e (s.engine e).len :: s.responses } ∧
    hostAct (.readOlen e) s = .next { s with responses := .olen e (s.engine e).olen :: s.responses } ∧
    (s.Inv → (s.engine e).phase ≠ .done → (s.engine e).olen = 0) ∧
    (∀ i, s.Inv → (s.engine e).phase = .done → i < (s.engine e).olen →
      ∃ c, (s.engine e).output.read i = some c ∧
        hostAct (.readOut e i) s = .next { s with responses := .cell e i c :: s.responses }) ∧
    (∀ i, fits (outCap s.cfg e) (i + 1) = true →
      ¬((s.engine e).phase = .done ∧ i < (s.engine e).olen) →
      ∃ c n, hostAct (.readOut e i) s = .next { s with responses := .cell e i c :: s.responses, reads := n })

/-- 43_control.md R208: `WriteLen` sets the length of an engine that is not BUSY, is ignored by a BUSY one, and does not
exist for a value above the input buffer's capacity. -/
def Obligations.WriteLenSetsTheLength : Prop :=
  ∀ (e : EngineId) (v : Nat) (s : State),
    (fits (inCap s.cfg e) v = true → (s.engine e).phase ≠ .busy →
      hostAct (.writeLen e v) s = .next (s.setEngine e { s.engine e with len := v })) ∧
    (fits (inCap s.cfg e) v = true → (s.engine e).phase = .busy → hostAct (.writeLen e v) s = .next s) ∧
    (fits (inCap s.cfg e) v = false → hostAct (.writeLen e v) s = .refused (.lenBeyondCapacity e v))

/-- 43_control.md R209: `WriteIn` sets one cell of the input buffer of an engine that is not BUSY and no other, and is
ignored by a BUSY one. -/
def Obligations.WriteInSetsOneCell : Prop :=
  ∀ (e : EngineId) (i : Nat) (c : Byte) (s : State), fits (inCap s.cfg e) (i + 1) = true →
    ((s.engine e).phase = .busy → hostAct (.writeIn e i c) s = .next s) ∧
    ((s.engine e).phase ≠ .busy →
      ∃ m : Memory, hostAct (.writeIn e i c) s = .next (s.setEngine e { s.engine e with input := m }) ∧
        m.read i = some c ∧ ∀ a, a ≠ i → m.read a = (s.engine e).input.read a)

/-- 20_memory.md R72, R77: while an engine is BUSY no host action but Reset, and no step of the other engine, changes
anything of it; and its own steps keep `LEN.e` and `IN.e`. So the message is the one at the accepted START. -/
def Obligations.MessageIsStableWhileBusy : Prop :=
  ∀ (e : EngineId) (ev : Event) (s t : State), (s.engine e).phase = .busy → ev ≠ .host .reset →
    runEvent ev s = .next t →
    t.cfg = s.cfg ∧ t.epoch = s.epoch ∧
    (t.engine e).len = (s.engine e).len ∧ (t.engine e).input = (s.engine e).input ∧
    (ev ≠ .engine e → t.engine e = s.engine e)

/-- 43_control.md R200, R208, 93_implementation_defined.md U9: a step is refused exactly when the next host action is one
that does not exist on this instance. -/
def Obligations.RefusedExactlyWhenNoSuchAction : Prop :=
  ∀ s : State, (∃ r, step s = .refused r) ↔
    ∃ a rest, s.agenda = .host a :: rest ∧ a.wellFormed s.cfg = false

/-! ### Reset -/

/-- 10_state.md R37: the values the spec gives for reset, on every instance; no cell of a buffer has a specified
value. -/
def Obligations.ResetValues : Prop :=
  ∀ (cfg : Config) (e : EngineId),
    let x := (State.resetWith cfg).engine e
    x.phase = .idle ∧ x.err = none ∧ x.len = 0 ∧ x.olen = 0 ∧
    (∀ i, x.input.read i = none ∧ x.output.read i = none) ∧
    (State.resetWith cfg).encGroup = none ∧ (State.resetWith cfg).decGroup = none

/-- 70_reset_and_hazards.md R260, R261: Reset acts on both engines, whatever they were doing: each shows the reset values
and has no step until a START; the record of the outside world stays (log entry 24). -/
def Obligations.ResetAbandonsBothEngines : Prop :=
  ∀ s : State, ∃ t, hostAct .reset s = .next t ∧
    (∀ e, (t.engine e).phase = .idle ∧ (t.engine e).err = none ∧ (t.engine e).len = 0 ∧ (t.engine e).olen = 0 ∧
      (∀ i, (t.engine e).input.read i = none ∧ (t.engine e).output.read i = none) ∧
      engineStep e t = .next t) ∧
    t.cfg = s.cfg ∧ t.agenda = s.agenda ∧ t.responses = s.responses

/-! ### One step of the machine -/

/-- 43_control.md R201: when the next event is a command word that decodes to an instruction, the step runs that
instruction; and a word placed by `withFetchWord` is run by the very next step. -/
def Obligations.StepRunsTheCommand : Prop :=
  (∀ (s : State) (w : Byte) (i : Instr) (rest : List Event),
    s.agenda = .host (.cmd w) :: rest → decodeCommand w = .ok i → step s = exec i { s with agenda := rest }) ∧
  (∀ (s : State) (nbits w : Nat) (i : Instr),
    decodeCommand (firstWord nbits w) = .ok i → step (s.withFetchWord nbits w) = exec i s)

/-- 42_decoder.md R173 to R180: when it is a BUSY decoder's turn and a group remains, and the four cells at `IDX.DEC`
decode to instructions, the step runs those four instructions in the four lanes, in order, and stores the result. That
a character is run as an instruction in a lane, that lanes are counted, and that they run in order and end with the first
that raises, are the model's reading (log entries 4, 5 and 23; R174 tests all four cells first, with the same result). -/
def Obligations.StepRunsTheFourCharacters : Prop :=
  ∀ (s : State) (rest : List Event) (i1 i2 i3 i4 : Instr),
    s.agenda = .engine .dec :: rest → s.dec.phase = .busy → s.dec.idx < s.dec.len →
    fits s.cfg.inCapDec (s.dec.idx + 4) = true →
    decodeCell (inputCell .dec s s.dec.idx) = .ok i1 → decodeCell (inputCell .dec s (s.dec.idx + 1)) = .ok i2 →
    decodeCell (inputCell .dec s (s.dec.idx + 2)) = .ok i3 →
    decodeCell (inputCell .dec s (s.dec.idx + 3)) = .ok i4 →
    step s = andThen (andThen (andThen (andThen
      (exec i1 (decFetch { s with agenda := rest })) (laneThen i2)) (laneThen i3)) (laneThen i4)) decStore

/-- A character placed by `withFetchWord` is run by the very next step, in lane 4 of the group `AAA` and the character
(log entry 12, the model's choice of where to place it). -/
def Obligations.StepRunsThePlacedCharacter : Prop :=
  ∀ (s : State) (nbits w : Nat), fits s.cfg.inCapDec 4 = true → fits s.cfg.outCapDec 3 = true →
    (∀ k, inv (firstWord nbits w) = some k →
      ∃ t, step (s.withFetchWord nbits w) = .next t ∧ t.agenda = s.agenda ∧ t.dec.idx = 4 ∧ t.dec.oidx = 3 ∧
        t.dec.output.read 2 = some (k.setWidth 8)) ∧
    (isPad (firstWord nbits w) = true →
      ∃ t, step (s.withFetchWord nbits w) = .next t ∧ t.agenda = s.agenda ∧ t.dec.idx = 4 ∧ t.dec.oidx = 2)

/-- 60_exceptions.md R234, 43_control.md R215, 70_reset_and_hazards.md R271: a step takes the next event of the agenda;
with none to come a BUSY engine takes its step, the encoder first (log entry 2, the model's choice), and a quiescent
block stays as it is. -/
def Obligations.StepTakesTheNextEvent : Prop :=
  (∀ (s : State) (ev : Event) (rest : List Event), s.agenda = ev :: rest →
    step s = runEvent ev { s with agenda := rest }) ∧
  (∀ s : State, s.agenda = [] → s.enc.phase = .busy → step s = engineStep .enc s) ∧
  (∀ s : State, s.agenda = [] → s.enc.phase ≠ .busy → step s = engineStep .dec s) ∧
  (∀ s : State, s.agenda = [] → s.quiescent → step s = .next s)

/-! ### Invariants -/

/-- The invariant of 10_state.md R36 holds after reset, on every instance, and so at `State.reset`. -/
def Obligations.ResetMeetsTheInvariant : Prop :=
  (∀ cfg : Config, (State.resetWith cfg).Inv) ∧ State.reset.Inv

/-- Every step keeps the invariant of 10_state.md R36 (a) to (c), with the canonical form of the four buffers and every
listed cell inside its buffer. -/
def Obligations.EveryStepKeepsTheInvariant : Prop :=
  ∀ s t : State, s.Inv → step s = .next t → t.Inv

/-- 43_control.md R215, 60_exceptions.md R224: no state with the invariant faults: neither engine ever reads or writes a
cell that does not exist. -/
def Obligations.NoStepFaults : Prop :=
  ∀ (s : State) (f : Fault), s.Inv → step s ≠ .fault f

/-- 00_scope.md R5, 10_state.md R27, R28: on a well-formed instance every length and index register stays within `LW`
bits: no length arithmetic wraps. -/
def Obligations.RegistersStayWithinLW : Prop :=
  ∀ s t : State, s.cfg.wellFormed = true → s.Inv → s.enc.FitsLW s.cfg → s.dec.FitsLW s.cfg → step s = .next t →
    t.cfg = s.cfg ∧ t.enc.FitsLW t.cfg ∧ t.dec.FitsLW t.cfg

/-! ### Whole operations -/

/-- 41_encoder.md R152 to R156: what `enc` gives: `4 * ceil(n / 3)` cells, `=` exactly at the last
`(3 - n mod 3) mod 3` of them, and alphabet characters everywhere else. -/
def Obligations.EncodedTextLaws : Prop :=
  ∀ b : List Byte,
    (encText b).length = 4 * ceilDiv b.length 3 ∧
    (encText b).count padCell = (3 - b.length % 3) % 3 ∧
    (∀ j, (encText b)[j]? = some padCell ↔ encData b.length ≤ j ∧ j < encTotal b.length) ∧
    (∀ c ∈ encText b, c ≠ padCell → ∃ k, inv c = some k)

/-- 41_encoder.md R153: from an accepted ENCODE the encoder takes exactly `ceil(n / 3)` group steps and one completion
step, and then shows DONE with `enc` of the message; cells at `T(n)` and beyond are unchanged. -/
def Obligations.EncoderRunComputesEnc : Prop :=
  ∀ s s0 : State, s.enc.phase ≠ .busy → fits s.cfg.inCapEnc s.enc.len = true →
    fits s.cfg.outCapEnc (encTotal s.enc.len) = true → exec .encode s = .next s0 →
    (∀ k, k ≤ ceilDiv s.enc.len 3 →
      ∃ u, runEngine .enc k s0 = .next u ∧ u.enc.phase = .busy ∧ u.enc.idx = 3 * k) ∧
    ∃ t, runEngine .enc (ceilDiv s.enc.len 3 + 1) s0 = .next t ∧
      t.enc.phase = .done ∧ t.enc.err = none ∧ t.enc.olen = encTotal s.enc.len ∧
      (∀ j, j < encTotal s.enc.len → t.enc.output.read j = (encText (message .enc s))[j]?) ∧
      (∀ j, encTotal s.enc.len ≤ j → t.enc.output.read j = s.enc.output.read j) ∧
      t.enc.len = s.enc.len ∧ t.enc.input = s.enc.input ∧ t.dec = s.dec

/-- 42_decoder.md R184: from an accepted DECODE, whatever the message: DONE with `dec` of it after `m / 4` group steps
and the completion step; or the START transition alone ends in ERROR; or the run ends in ERROR with InvalidCharacter
after at most `m / 4` steps (turns after the end change nothing, log entry 3). -/
def Obligations.DecoderRunComputesDec : Prop :=
  ∀ s s0 : State, s.dec.phase ≠ .busy → fits s.cfg.inCapDec s.dec.len = true → exec .decode s = .next s0 →
    match decText s.cfg.outCapDec (message .dec s) with
    | .ok y =>
      ∃ t, runEngine .dec (s.dec.len / 4 + 1) s0 = .next t ∧
        t.dec.phase = .done ∧ t.dec.err = none ∧ t.dec.olen = y.length ∧
        (∀ j, j < y.length → t.dec.output.read j = y[j]?) ∧
        (∀ j, y.length ≤ j → t.dec.output.read j = s.dec.output.read j) ∧
        t.dec.len = s.dec.len ∧ t.dec.input = s.dec.input ∧ t.enc = s.enc
    | .error .invalidCharacter =>
      s0.dec.phase = .busy ∧
      ∃ t, runEngine .dec (s.dec.len / 4) s0 = .next t ∧
        t.dec.phase = .error ∧ t.dec.err = some .invalidCharacter ∧ t.dec.olen = 0 ∧
        t.dec.len = s.dec.len ∧ t.dec.input = s.dec.input ∧ t.enc = s.enc
    | .error x => ErrorEntered .dec x s s0

/-- 60_exceptions.md R234, 41_encoder.md R153, 42_decoder.md R184: an operation does not depend on the interleaving. In
any sequence of events without a Reset, an engine that is BUSY and stays so for its `k` turns in it is as it would be by
taking those `k` turns alone, whatever the host and the other engine do meanwhile. Its next turn then ends the same as
alone, also where it is the one that ends the operation; and once that is over, its status, length of output and output
stay so through any events but a Reset and its next START. -/
def Obligations.OperationIgnoresTheInterleaving : Prop :=
  ∀ (e : EngineId) (evs : List Event) (s t u : State),
    (s.engine e).phase = .busy → (∀ ev ∈ evs, ev ≠ .host .reset) →
    runEngine e (evs.count (.engine e)) s = .next u → (u.engine e).phase = .busy →
    runEvents evs s = .next t →
    t.engine e = u.engine e ∧
    ∀ v, engineStep e u = .next v →
      ∃ w, runEvents (evs ++ [.engine e]) s = .next w ∧ w.engine e = v.engine e ∧
        ∀ (later : List Event) (z : State), (v.engine e).phase ≠ .busy →
          (∀ ev ∈ later, ev ≠ .host .reset ∧ ev ≠ .host (.cmd (startWord e))) → runEvents later w = .next z →
          (z.engine e).phase = (v.engine e).phase ∧ (z.engine e).err = (v.engine e).err ∧
          (z.engine e).olen = (v.engine e).olen ∧
          ∀ a, (z.engine e).output.read a = (v.engine e).output.read a

/-- 43_control.md R211, R212: the calls `encode(b)` and `decode(t)` as host actions return `enc(b)` or fail with
AllocationFailure, and return what `dec(t)` says. Waiting is written as the engine's turns in place of polling STATUS,
the model's choice (log entry 25). -/
def Obligations.CallsReturnEncAndDec : Prop :=
  (∀ (b : List Byte) (s : State), s.Inv → s.enc.phase ≠ .busy → fits s.cfg.inCapEnc b.length = true →
    ∃ t, runEvents (callEvents .enc b) s = .next t ∧ t.dec = s.dec ∧
      callResult .enc t = some (if fits s.cfg.outCapEnc (encTotal b.length) then .ok (encText b)
        else .error .allocationFailure)) ∧
  (∀ (m : List Byte) (s : State), s.Inv → s.dec.phase ≠ .busy → fits s.cfg.inCapDec m.length = true →
    ∃ t, runEvents (callEvents .dec m) s = .next t ∧ t.enc = s.enc ∧
      callResult .dec t = some (decText s.cfg.outCapDec m))

/-- 42_decoder.md R186: decoding the encoding of a message gives the message back, for every message, the empty one
included, provided the decoder's buffer holds `3 * ceil(n / 3)` bytes. -/
def Obligations.DecodingInvertsEncoding : Prop :=
  ∀ (b : List Byte) (cap : Option Nat), fits cap (3 * ceilDiv b.length 3) = true → decText cap (encText b) = .ok b

/-- 43_control.md R213, 42_decoder.md R186: the driver's round trip through both engines of the machine returns the
message, when no capacity is exceeded. Waiting is written as the engine's turns in place of polling STATUS, the model's
choice (log entry 25). -/
def Obligations.RoundTripThroughBothEngines : Prop :=
  ∀ (b : List Byte) (s : State), s.Inv → s.quiescent →
    fits s.cfg.inCapEnc b.length = true → fits s.cfg.outCapEnc (encTotal b.length) = true →
    fits s.cfg.inCapDec (encTotal b.length) = true → fits s.cfg.outCapDec (3 * ceilDiv b.length 3) = true →
    roundTrip b s = some (.ok b)

/-- 30_encoding.md R102: the decoder accepts a text exactly when its length is a multiple of 4, the estimate fits, no
cell is invalid, and no group has `=` at position 1 or 2. -/
def Obligations.AcceptedTexts : Prop :=
  ∀ (cap : Option Nat) (t : List Byte),
    (∃ y, decText cap t = .ok y) ↔
      t.length % 4 = 0 ∧ fits cap (decEstimate t.length) = true ∧ (∀ c ∈ t, inSet65 c = true) ∧
      ∀ g, g < t.length / 4 → t[4 * g]? ≠ some padCell ∧ t[4 * g + 1]? ≠ some padCell

/-- 42_decoder.md R188: texts no encoder produces, which the decoder accepts. -/
def Obligations.NonCanonicalTextsAreAccepted : Prop :=
  decText none [0x51, 0x52, 0x3D, 0x3D] = .ok [0x41] ∧
  decText none [0x51, 0x55, 0x4A, 0x3D] = .ok [0x41, 0x42] ∧
  decText none [0x51, 0x51, 0x3D, 0x41] = .ok [0x41] ∧
  decText none [0x51, 0x51, 0x3D, 0x3D, 0x51, 0x51, 0x3D, 0x3D] = .ok [0x41, 0x41] ∧
  decText none [0x51, 0x51, 0x3D, 0x3D, 0x5A, 0x6D, 0x39, 0x76] = .ok [0x41, 0x66, 0x6F, 0x6F]

/-- 41_encoder.md R157, 42_decoder.md R187: an empty message. START cannot fail on any instance, no group step runs, one
completion step gives DONE with `OLEN = 0`, and no cell is written. -/
def Obligations.EmptyMessageCompletesAtOnce : Prop :=
  (∀ s : State, s.enc.phase ≠ .busy → s.enc.len = 0 →
    ∃ s0 t, exec .encode s = .next s0 ∧ s0.enc.phase = .busy ∧ engineStep .enc s0 = .next t ∧
      t.enc.phase = .done ∧ t.enc.olen = 0 ∧ ∀ a, t.enc.output.read a = s.enc.output.read a) ∧
  (∀ s : State, s.dec.phase ≠ .busy → s.dec.len = 0 →
    ∃ s0 t, exec .decode s = .next s0 ∧ s0.dec.phase = .busy ∧ engineStep .dec s0 = .next t ∧
      t.dec.phase = .done ∧ t.dec.olen = 0 ∧ ∀ a, t.dec.output.read a = s.dec.output.read a)

/-- 70_reset_and_hazards.md R271, R272: with no event to come, both engines end their operations within the steps their
lengths allow. -/
def Obligations.BusyEnginesFinish : Prop :=
  ∀ s : State, s.Inv → s.agenda = [] →
    ∃ k t, k ≤ stepCount .enc s.enc.len + stepCount .dec s.dec.len ∧ runSteps k s = .next t ∧ t.quiescent
end

