-- ==== Sys2Proof/Laws/Alphabet.lean ====
section
/-! SUPPORT. The character code as the machine sees it: which instruction a cell decodes to, and which meaning that
instruction has. -/

namespace Sys2Proof.Machine

/-- `SYM_k` means: index `k` in the next lane. -/
theorem exec_symbolOf (k : Index) (s : State) : exec (symbolOf k) s = takeSymbol k s := by
  obtain ⟨⟨n, hn⟩⟩ := k
  interval_cases n <;> rfl

@[simp] theorem exec_symPad (s : State) : exec .symPad s = takePad s := rfl

/-- The word of `SYM_k` is the character `ALPHA(k)`: encoder and decoder share one table (40_alphabet_lookup.md
R125). -/
theorem word_symbolOf (k : Index) : word (symbolOf k) = alpha k := by
  revert k; decide

theorem inv_padCell : inv padCell = none := by decide

theorem isPad_iff (c : Byte) : isPad c = true ↔ c = padCell := by simp [isPad]

/-- The padding character has no index. -/
theorem inv_eq_none_of_isPad {c : Byte} (h : isPad c = true) : inv c = none := by
  rw [(isPad_iff c).mp h]; exact inv_padCell

theorem isPad_eq_false_of_inv {c : Byte} {k : Index} (h : inv c = some k) : isPad c = false := by
  cases hp : isPad c with
  | false => rfl
  | true => rw [inv_eq_none_of_isPad hp] at h; cases h

theorem decodeCell_of_isPad {c : Byte} (h : isPad c = true) : decodeCell c = .ok .symPad := by
  simp [decodeCell, h]

theorem decodeCell_of_inv {c : Byte} {k : Index} (h : inv c = some k) : decodeCell c = .ok (symbolOf k) := by
  simp [decodeCell, isPad_eq_false_of_inv h, h]

theorem decodeCell_of_invalid {c : Byte} (h : inSet65 c = false) : decodeCell c = .error (.invalidCell c) := by
  simp only [inSet65, Bool.or_eq_false_iff] at h
  have hi : inv c = none := by simpa using h.1
  simp [decodeCell, h.2, hi]

/-- Every cell is the padding character, an alphabet character or invalid, and exactly one of them. -/
theorem cell_cases (c : Byte) :
    isPad c = true ∧ inv c = none ∨ (∃ k, inv c = some k ∧ isPad c = false) ∨ inSet65 c = false := by
  cases hp : isPad c with
  | true => exact .inl ⟨rfl, inv_eq_none_of_isPad hp⟩
  | false =>
    cases hi : inv c with
    | none => exact .inr (.inr (by simp [inSet65, hp, hi]))
    | some k => exact .inr (.inl ⟨k, rfl, rfl⟩)

end Sys2Proof.Machine
end

