-- ==== Sys2Proof/Laws/Memory.lean ====
section
/-! SUPPORT. The laws of one buffer: reading after writing, and that every operation keeps the canonical form. -/

namespace Sys2Proof.Machine

@[simp] theorem read_nil (a : Nat) : Memory.read [] a = none := rfl

@[simp] theorem read_write_same (m : Memory) (a : Nat) (b : Byte) : (Memory.write m a b).read a = some b := by
  induction m with
  | nil => simp [Memory.write, Memory.read]
  | cons p m ih =>
    obtain ⟨x, c⟩ := p
    simp only [Memory.write]
    split
    · simp [Memory.read]
    · split
      · simp [Memory.read]
      · rename_i h; simp [Memory.read, h, ih]

theorem read_write_other (m : Memory) {a a' : Nat} (b : Byte) (h : a' ≠ a) :
    (Memory.write m a b).read a' = m.read a' := by
  induction m with
  | nil => simp [Memory.write, Memory.read, h]
  | cons p m ih =>
    obtain ⟨x, c⟩ := p
    simp only [Memory.write]
    split
    · simp [Memory.read, h]
    · split
      · rename_i hx; subst hx; simp [Memory.read, h]
      · simp [Memory.read, ih]

/-- The cells of a buffer after one write: the written one, and cells that were there. -/
theorem mem_write {m : Memory} {a : Nat} {b : Byte} {p : Host.Cell} (h : p ∈ Memory.write m a b) :
    p = (a, b) ∨ p ∈ m := by
  induction m with
  | nil => simpa [Memory.write] using h
  | cons q m ih =>
    obtain ⟨x, c⟩ := q
    simp only [Memory.write] at h
    split at h
    · simpa using h
    · split at h
      · rcases List.mem_cons.mp h with h | h
        · exact .inl h
        · exact .inr (List.mem_cons_of_mem _ h)
      · rcases List.mem_cons.mp h with h | h
        · exact .inr (h ▸ List.mem_cons_self)
        · exact (ih h).imp id (List.mem_cons_of_mem _)

theorem write_wf {m : Memory} (a : Nat) (b : Byte) (h : m.wf) : (Memory.write m a b).wf := by
  induction m with
  | nil => exact List.pairwise_singleton _ _
  | cons p m ih =>
    obtain ⟨x, c⟩ := p
    have hx := (List.pairwise_cons.mp h).1
    have hm := (List.pairwise_cons.mp h).2
    simp only [Memory.write]
    split
    · rename_i hlt
      refine List.pairwise_cons.mpr ⟨fun q hq => ?_, h⟩
      rcases List.mem_cons.mp hq with rfl | hq
      · exact hlt
      · exact Nat.lt_trans hlt (hx q hq)
    · split
      · rename_i hax; subst hax; exact List.pairwise_cons.mpr ⟨hx, hm⟩
      · rename_i hnlt hne
        refine List.pairwise_cons.mpr ⟨fun q hq => ?_, ih hm⟩
        rcases mem_write hq with rfl | hq
        · exact Nat.lt_of_le_of_ne (Nat.le_of_not_lt hnlt) (Ne.symm hne)
        · exact hx q hq

theorem writeCells_wf {m : Memory} (a : Nat) (bs : List Byte) (h : m.wf) : (m.writeCells a bs).wf := by
  induction bs generalizing m a with
  | nil => exact h
  | cons b bs ih => exact ih (a + 1) (write_wf a b h)

theorem nil_wf : Memory.wf [] := List.Pairwise.nil

/-- Outside the written range nothing changes. -/
theorem read_writeCells_outside (m : Memory) (a : Nat) (bs : List Byte) {i : Nat}
    (h : i < a ∨ a + bs.length ≤ i) : (m.writeCells a bs).read i = m.read i := by
  induction bs generalizing m a with
  | nil => rfl
  | cons b bs ih =>
    simp only [List.length_cons] at h
    rw [Memory.writeCells, ih _ _ (by omega), read_write_other _ _ (by omega)]

/-- Inside the written range the sequence is read back. -/
theorem read_writeCells_inside (m : Memory) (a : Nat) (bs : List Byte) {j : Nat} (h : j < bs.length) :
    (m.writeCells a bs).read (a + j) = some bs[j] := by
  induction bs generalizing m a j with
  | nil => simp at h
  | cons b bs ih =>
    cases j with
    | zero =>
      rw [Memory.writeCells, read_writeCells_outside _ _ _ (by omega)]
      exact read_write_same m a b
    | succ j =>
      have hj : j < bs.length := by simpa using h
      have := ih (Memory.write m a b) (a + 1) hj
      rw [Memory.writeCells, show a + (j + 1) = a + 1 + j by omega, this]
      rfl

/-- The cells of a buffer after a write of a sequence: cells that were there, or cells of the written range. -/
theorem mem_writeCells {m : Memory} {a : Nat} {bs : List Byte} {p : Host.Cell} (h : p ∈ m.writeCells a bs) :
    p ∈ m ∨ (a ≤ p.1 ∧ p.1 < a + bs.length) := by
  induction bs generalizing m a with
  | nil => exact .inl h
  | cons b bs ih =>
    rcases ih h with h | ⟨h₁, h₂⟩
    · rcases mem_write h with rfl | h
      · exact .inr ⟨Nat.le_refl _, by simp⟩
      · exact .inl h
    · exact .inr ⟨by omega, by simp only [List.length_cons]; omega⟩

/-- A cell below every listed one is unlisted. -/
theorem read_eq_none_of_lt {m : Memory} {a : Nat} (h : ∀ p ∈ m, a < p.1) : m.read a = none := by
  induction m with
  | nil => rfl
  | cons p m ih =>
    have hp := h p List.mem_cons_self
    simp [Memory.read, Nat.ne_of_lt hp, ih fun q hq => h q (List.mem_cons_of_mem _ hq)]

/-- The canonical form is canonical: buffers that read the same everywhere are the same list. -/
theorem eq_of_read_eq {m m' : Memory} (h : m.wf) (h' : m'.wf) (hr : ∀ a, m.read a = m'.read a) : m = m' := by
  induction m generalizing m' with
  | nil =>
    cases m' with
    | nil => rfl
    | cons q m' => have := hr q.1; simp [Memory.read] at this
  | cons p m ih =>
    obtain ⟨x, c⟩ := p
    have hx := (List.pairwise_cons.mp h).1
    cases m' with
    | nil => have := hr x; simp [Memory.read] at this
    | cons q m' =>
      obtain ⟨y, d⟩ := q
      have hy := (List.pairwise_cons.mp h').1
      have hxy : x = y := by
        rcases Nat.lt_trichotomy x y with hlt | heq | hlt
        · have := hr x
          rw [read_eq_none_of_lt (m := (y, d) :: m')] at this
          · simp [Memory.read] at this
          · intro r hr'
            rcases List.mem_cons.mp hr' with rfl | hr'
            · exact hlt
            · exact Nat.lt_trans hlt (hy r hr')
        · exact heq
        · have := hr y
          rw [read_eq_none_of_lt (m := (x, c) :: m)] at this
          · simp [Memory.read] at this
          · intro r hr'
            rcases List.mem_cons.mp hr' with rfl | hr'
            · exact hlt
            · exact Nat.lt_trans hlt (hx r hr')
      subst hxy
      have hcd : c = d := by have := hr x; simpa [Memory.read] using this
      subst hcd
      congr 1
      refine ih (List.pairwise_cons.mp h).2 (List.pairwise_cons.mp h').2 fun a => ?_
      by_cases ha : a = x
      · subst ha
        rw [read_eq_none_of_lt hx, read_eq_none_of_lt hy]
      · have := hr a; simpa [Memory.read, ha] using this

theorem reset_memory_wf (e : EngineId) :
    (match e with | .enc => State.reset.enc.input | .dec => State.reset.dec.input).wf ∧
    (match e with | .enc => State.reset.enc.output | .dec => State.reset.dec.output).wf := by
  cases e <;> exact ⟨nil_wf, nil_wf⟩

end Sys2Proof.Machine
end

