-- ==== Sys2Proof/Laws/State.lean ====
section
/-! SUPPORT. One lemma per field per update of the state: none of these updates needs unfolding in a later proof. -/

namespace Sys2Proof.Machine

@[simp] theorem engine_enc (s : State) : s.engine .enc = s.enc := rfl
@[simp] theorem engine_dec (s : State) : s.engine .dec = s.dec := rfl

@[simp] theorem setEngine_cfg (s : State) (e : EngineId) (x : Engine) : (s.setEngine e x).cfg = s.cfg := by cases e <;> rfl
@[simp] theorem setEngine_agenda (s : State) (e : EngineId) (x : Engine) : (s.setEngine e x).agenda = s.agenda := by cases e <;> rfl
@[simp] theorem setEngine_responses (s : State) (e : EngineId) (x : Engine) : (s.setEngine e x).responses = s.responses := by cases e <;> rfl
@[simp] theorem setEngine_reads (s : State) (e : EngineId) (x : Engine) : (s.setEngine e x).reads = s.reads := by cases e <;> rfl
@[simp] theorem setEngine_epoch (s : State) (e : EngineId) (x : Engine) : (s.setEngine e x).epoch = s.epoch := by cases e <;> rfl
@[simp] theorem setEngine_encGroup (s : State) (e : EngineId) (x : Engine) : (s.setEngine e x).encGroup = s.encGroup := by cases e <;> rfl
@[simp] theorem setEngine_decGroup (s : State) (e : EngineId) (x : Engine) : (s.setEngine e x).decGroup = s.decGroup := by cases e <;> rfl
@[simp] theorem setEngine_engine_same (s : State) (e : EngineId) (x : Engine) : (s.setEngine e x).engine e = x := by
  cases e <;> rfl
theorem setEngine_engine_other (s : State) {e e' : EngineId} (x : Engine) (h : e' ≠ e) :
    (s.setEngine e x).engine e' = s.engine e' := by
  cases e <;> cases e' <;> first | rfl | exact absurd rfl h
@[simp] theorem setEngine_enc_enc (s : State) (x : Engine) : (s.setEngine .enc x).enc = x := rfl
@[simp] theorem setEngine_enc_dec (s : State) (x : Engine) : (s.setEngine .enc x).dec = s.dec := rfl
@[simp] theorem setEngine_dec_enc (s : State) (x : Engine) : (s.setEngine .dec x).enc = s.enc := rfl
@[simp] theorem setEngine_dec_dec (s : State) (x : Engine) : (s.setEngine .dec x).dec = x := rfl

@[simp] theorem clearGroup_cfg (e : EngineId) (s : State) : (clearGroup e s).cfg = s.cfg := by cases e <;> rfl
@[simp] theorem clearGroup_agenda (e : EngineId) (s : State) : (clearGroup e s).agenda = s.agenda := by cases e <;> rfl
@[simp] theorem clearGroup_responses (e : EngineId) (s : State) : (clearGroup e s).responses = s.responses := by cases e <;> rfl
@[simp] theorem clearGroup_reads (e : EngineId) (s : State) : (clearGroup e s).reads = s.reads := by cases e <;> rfl
@[simp] theorem clearGroup_epoch (e : EngineId) (s : State) : (clearGroup e s).epoch = s.epoch := by cases e <;> rfl
@[simp] theorem clearGroup_enc (e : EngineId) (s : State) : (clearGroup e s).enc = s.enc := by cases e <;> rfl
@[simp] theorem clearGroup_dec (e : EngineId) (s : State) : (clearGroup e s).dec = s.dec := by cases e <;> rfl
@[simp] theorem clearGroup_engine (e e' : EngineId) (s : State) : (clearGroup e s).engine e' = s.engine e' := by
  cases e <;> cases e' <;> rfl
@[simp] theorem clearGroup_enc_encGroup (s : State) : (clearGroup .enc s).encGroup = none := rfl
@[simp] theorem clearGroup_enc_decGroup (s : State) : (clearGroup .enc s).decGroup = s.decGroup := rfl
@[simp] theorem clearGroup_dec_encGroup (s : State) : (clearGroup .dec s).encGroup = s.encGroup := rfl
@[simp] theorem clearGroup_dec_decGroup (s : State) : (clearGroup .dec s).decGroup = none := rfl

@[simp] theorem freeIndices_phase (c : Config) (e : EngineId) (x : Engine) : (freeIndices c e x).phase = x.phase := rfl
@[simp] theorem freeIndices_err (c : Config) (e : EngineId) (x : Engine) : (freeIndices c e x).err = x.err := rfl
@[simp] theorem freeIndices_len (c : Config) (e : EngineId) (x : Engine) : (freeIndices c e x).len = x.len := rfl
@[simp] theorem freeIndices_olen (c : Config) (e : EngineId) (x : Engine) : (freeIndices c e x).olen = x.olen := rfl
@[simp] theorem freeIndices_input (c : Config) (e : EngineId) (x : Engine) : (freeIndices c e x).input = x.input := rfl
@[simp] theorem freeIndices_output (c : Config) (e : EngineId) (x : Engine) : (freeIndices c e x).output = x.output := rfl

@[simp] theorem raise_cfg (e : EngineId) (c : Condition) (s : State) : (raise e c s).cfg = s.cfg := by cases e <;> rfl
@[simp] theorem raise_agenda (e : EngineId) (c : Condition) (s : State) : (raise e c s).agenda = s.agenda := by cases e <;> rfl
@[simp] theorem raise_responses (e : EngineId) (c : Condition) (s : State) : (raise e c s).responses = s.responses := by cases e <;> rfl
@[simp] theorem raise_reads (e : EngineId) (c : Condition) (s : State) : (raise e c s).reads = s.reads := by cases e <;> rfl
@[simp] theorem raise_epoch (e : EngineId) (c : Condition) (s : State) : (raise e c s).epoch = s.epoch := by cases e <;> rfl
@[simp] theorem raise_enc_dec (c : Condition) (s : State) : (raise .enc c s).dec = s.dec := rfl
@[simp] theorem raise_enc_decGroup (c : Condition) (s : State) : (raise .enc c s).decGroup = s.decGroup := rfl
@[simp] theorem raise_enc_encGroup (c : Condition) (s : State) : (raise .enc c s).encGroup = none := rfl
@[simp] theorem raise_dec_enc (c : Condition) (s : State) : (raise .dec c s).enc = s.enc := rfl
@[simp] theorem raise_dec_encGroup (c : Condition) (s : State) : (raise .dec c s).encGroup = s.encGroup := rfl
@[simp] theorem raise_dec_decGroup (c : Condition) (s : State) : (raise .dec c s).decGroup = none := rfl

@[simp] theorem acceptStart_cfg (e : EngineId) (s : State) : (acceptStart e s).cfg = s.cfg := by cases e <;> rfl
@[simp] theorem acceptStart_agenda (e : EngineId) (s : State) : (acceptStart e s).agenda = s.agenda := by cases e <;> rfl
@[simp] theorem acceptStart_responses (e : EngineId) (s : State) : (acceptStart e s).responses = s.responses := by cases e <;> rfl
@[simp] theorem acceptStart_reads (e : EngineId) (s : State) : (acceptStart e s).reads = s.reads := by cases e <;> rfl
@[simp] theorem acceptStart_epoch (e : EngineId) (s : State) : (acceptStart e s).epoch = s.epoch := by cases e <;> rfl
@[simp] theorem acceptStart_enc_dec (s : State) : (acceptStart .enc s).dec = s.dec := rfl
@[simp] theorem acceptStart_enc_decGroup (s : State) : (acceptStart .enc s).decGroup = s.decGroup := rfl
@[simp] theorem acceptStart_enc_encGroup (s : State) : (acceptStart .enc s).encGroup = s.encGroup := rfl
@[simp] theorem acceptStart_dec_enc (s : State) : (acceptStart .dec s).enc = s.enc := rfl
@[simp] theorem acceptStart_dec_encGroup (s : State) : (acceptStart .dec s).encGroup = s.encGroup := rfl
@[simp] theorem acceptStart_dec_decGroup (s : State) : (acceptStart .dec s).decGroup = s.decGroup := rfl

@[simp] theorem beginOperation_cfg (e : EngineId) (s : State) : (beginOperation e s).cfg = s.cfg := by cases e <;> rfl
@[simp] theorem beginOperation_agenda (e : EngineId) (s : State) : (beginOperation e s).agenda = s.agenda := by cases e <;> rfl
@[simp] theorem beginOperation_responses (e : EngineId) (s : State) : (beginOperation e s).responses = s.responses := by cases e <;> rfl
@[simp] theorem beginOperation_reads (e : EngineId) (s : State) : (beginOperation e s).reads = s.reads := by cases e <;> rfl
@[simp] theorem beginOperation_epoch (e : EngineId) (s : State) : (beginOperation e s).epoch = s.epoch := by cases e <;> rfl
@[simp] theorem beginOperation_enc_dec (s : State) : (beginOperation .enc s).dec = s.dec := rfl
@[simp] theorem beginOperation_enc_decGroup (s : State) : (beginOperation .enc s).decGroup = s.decGroup := rfl
@[simp] theorem beginOperation_enc_encGroup (s : State) : (beginOperation .enc s).encGroup = s.encGroup := rfl
@[simp] theorem beginOperation_dec_enc (s : State) : (beginOperation .dec s).enc = s.enc := rfl
@[simp] theorem beginOperation_dec_encGroup (s : State) : (beginOperation .dec s).encGroup = s.encGroup := rfl
@[simp] theorem beginOperation_dec_decGroup (s : State) : (beginOperation .dec s).decGroup = s.decGroup := rfl

@[simp] theorem complete_cfg (e : EngineId) (s : State) : (complete e s).cfg = s.cfg := by cases e <;> rfl
@[simp] theorem complete_agenda (e : EngineId) (s : State) : (complete e s).agenda = s.agenda := by cases e <;> rfl
@[simp] theorem complete_responses (e : EngineId) (s : State) : (complete e s).responses = s.responses := by cases e <;> rfl
@[simp] theorem complete_reads (e : EngineId) (s : State) : (complete e s).reads = s.reads := by cases e <;> rfl
@[simp] theorem complete_epoch (e : EngineId) (s : State) : (complete e s).epoch = s.epoch := by cases e <;> rfl
@[simp] theorem complete_enc_dec (s : State) : (complete .enc s).dec = s.dec := rfl
@[simp] theorem complete_enc_decGroup (s : State) : (complete .enc s).decGroup = s.decGroup := rfl
@[simp] theorem complete_enc_encGroup (s : State) : (complete .enc s).encGroup = s.encGroup := rfl
@[simp] theorem complete_dec_enc (s : State) : (complete .dec s).enc = s.enc := rfl
@[simp] theorem complete_dec_encGroup (s : State) : (complete .dec s).encGroup = s.encGroup := rfl
@[simp] theorem complete_dec_decGroup (s : State) : (complete .dec s).decGroup = s.decGroup := rfl

@[simp] theorem raise_engine_phase (e : EngineId) (c : Condition) (s : State) : ((raise e c s).engine e).phase = .error := by cases e <;> rfl
@[simp] theorem raise_enc_enc_phase (c : Condition) (s : State) : (raise .enc c s).enc.phase = .error := rfl
@[simp] theorem raise_dec_dec_phase (c : Condition) (s : State) : (raise .dec c s).dec.phase = .error := rfl
@[simp] theorem raise_engine_err (e : EngineId) (c : Condition) (s : State) : ((raise e c s).engine e).err = some c := by cases e <;> rfl
@[simp] theorem raise_enc_enc_err (c : Condition) (s : State) : (raise .enc c s).enc.err = some c := rfl
@[simp] theorem raise_dec_dec_err (c : Condition) (s : State) : (raise .dec c s).dec.err = some c := rfl
@[simp] theorem raise_engine_olen (e : EngineId) (c : Condition) (s : State) : ((raise e c s).engine e).olen = 0 := by cases e <;> rfl
@[simp] theorem raise_enc_enc_olen (c : Condition) (s : State) : (raise .enc c s).enc.olen = 0 := rfl
@[simp] theorem raise_dec_dec_olen (c : Condition) (s : State) : (raise .dec c s).dec.olen = 0 := rfl
@[simp] theorem raise_engine_output (e : EngineId) (c : Condition) (s : State) : ((raise e c s).engine e).output = [] := by cases e <;> rfl
@[simp] theorem raise_enc_enc_output (c : Condition) (s : State) : (raise .enc c s).enc.output = [] := rfl
@[simp] theorem raise_dec_dec_output (c : Condition) (s : State) : (raise .dec c s).dec.output = [] := rfl
@[simp] theorem raise_engine_len (e : EngineId) (c : Condition) (s : State) : ((raise e c s).engine e).len = (s.engine e).len := by cases e <;> rfl
@[simp] theorem raise_enc_enc_len (c : Condition) (s : State) : (raise .enc c s).enc.len = s.enc.len := rfl
@[simp] theorem raise_dec_dec_len (c : Condition) (s : State) : (raise .dec c s).dec.len = s.dec.len := rfl
@[simp] theorem raise_engine_input (e : EngineId) (c : Condition) (s : State) : ((raise e c s).engine e).input = (s.engine e).input := by cases e <;> rfl
@[simp] theorem raise_enc_enc_input (c : Condition) (s : State) : (raise .enc c s).enc.input = s.enc.input := rfl
@[simp] theorem raise_dec_dec_input (c : Condition) (s : State) : (raise .dec c s).dec.input = s.dec.input := rfl

@[simp] theorem acceptStart_engine_phase (e : EngineId) (s : State) : ((acceptStart e s).engine e).phase = (s.engine e).phase := by cases e <;> rfl
@[simp] theorem acceptStart_enc_enc_phase (s : State) : (acceptStart .enc s).enc.phase = s.enc.phase := rfl
@[simp] theorem acceptStart_dec_dec_phase (s : State) : (acceptStart .dec s).dec.phase = s.dec.phase := rfl
@[simp] theorem acceptStart_engine_err (e : EngineId) (s : State) : ((acceptStart e s).engine e).err = none := by cases e <;> rfl
@[simp] theorem acceptStart_enc_enc_err (s : State) : (acceptStart .enc s).enc.err = none := rfl
@[simp] theorem acceptStart_dec_dec_err (s : State) : (acceptStart .dec s).dec.err = none := rfl
@[simp] theorem acceptStart_engine_olen (e : EngineId) (s : State) : ((acceptStart e s).engine e).olen = 0 := by cases e <;> rfl
@[simp] theorem acceptStart_enc_enc_olen (s : State) : (acceptStart .enc s).enc.olen = 0 := rfl
@[simp] theorem acceptStart_dec_dec_olen (s : State) : (acceptStart .dec s).dec.olen = 0 := rfl
@[simp] theorem acceptStart_engine_output (e : EngineId) (s : State) : ((acceptStart e s).engine e).output = (s.engine e).output := by cases e <;> rfl
@[simp] theorem acceptStart_enc_enc_output (s : State) : (acceptStart .enc s).enc.output = s.enc.output := rfl
@[simp] theorem acceptStart_dec_dec_output (s : State) : (acceptStart .dec s).dec.output = s.dec.output := rfl
@[simp] theorem acceptStart_engine_len (e : EngineId) (s : State) : ((acceptStart e s).engine e).len = (s.engine e).len := by cases e <;> rfl
@[simp] theorem acceptStart_enc_enc_len (s : State) : (acceptStart .enc s).enc.len = s.enc.len := rfl
@[simp] theorem acceptStart_dec_dec_len (s : State) : (acceptStart .dec s).dec.len = s.dec.len := rfl
@[simp] theorem acceptStart_engine_input (e : EngineId) (s : State) : ((acceptStart e s).engine e).input = (s.engine e).input := by cases e <;> rfl
@[simp] theorem acceptStart_enc_enc_input (s : State) : (acceptStart .enc s).enc.input = s.enc.input := rfl
@[simp] theorem acceptStart_dec_dec_input (s : State) : (acceptStart .dec s).dec.input = s.dec.input := rfl
@[simp] theorem acceptStart_engine_idx (e : EngineId) (s : State) : ((acceptStart e s).engine e).idx = (s.engine e).idx := by cases e <;> rfl
@[simp] theorem acceptStart_enc_enc_idx (s : State) : (acceptStart .enc s).enc.idx = s.enc.idx := rfl
@[simp] theorem acceptStart_dec_dec_idx (s : State) : (acceptStart .dec s).dec.idx = s.dec.idx := rfl
@[simp] theorem acceptStart_engine_oidx (e : EngineId) (s : State) : ((acceptStart e s).engine e).oidx = (s.engine e).oidx := by cases e <;> rfl
@[simp] theorem acceptStart_enc_enc_oidx (s : State) : (acceptStart .enc s).enc.oidx = s.enc.oidx := rfl
@[simp] theorem acceptStart_dec_dec_oidx (s : State) : (acceptStart .dec s).dec.oidx = s.dec.oidx := rfl
@[simp] theorem acceptStart_engine_draws (e : EngineId) (s : State) : ((acceptStart e s).engine e).draws = (s.engine e).draws := by cases e <;> rfl
@[simp] theorem acceptStart_enc_enc_draws (s : State) : (acceptStart .enc s).enc.draws = s.enc.draws := rfl
@[simp] theorem acceptStart_dec_dec_draws (s : State) : (acceptStart .dec s).dec.draws = s.dec.draws := rfl

@[simp] theorem beginOperation_engine_phase (e : EngineId) (s : State) : ((beginOperation e s).engine e).phase = .busy := by cases e <;> rfl
@[simp] theorem beginOperation_enc_enc_phase (s : State) : (beginOperation .enc s).enc.phase = .busy := rfl
@[simp] theorem beginOperation_dec_dec_phase (s : State) : (beginOperation .dec s).dec.phase = .busy := rfl
@[simp] theorem beginOperation_engine_err (e : EngineId) (s : State) : ((beginOperation e s).engine e).err = (s.engine e).err := by cases e <;> rfl
@[simp] theorem beginOperation_enc_enc_err (s : State) : (beginOperation .enc s).enc.err = s.enc.err := rfl
@[simp] theorem beginOperation_dec_dec_err (s : State) : (beginOperation .dec s).dec.err = s.dec.err := rfl
@[simp] theorem beginOperation_engine_olen (e : EngineId) (s : State) : ((beginOperation e s).engine e).olen = (s.engine e).olen := by cases e <;> rfl
@[simp] theorem beginOperation_enc_enc_olen (s : State) : (beginOperation .enc s).enc.olen = s.enc.olen := rfl
@[simp] theorem beginOperation_dec_dec_olen (s : State) : (beginOperation .dec s).dec.olen = s.dec.olen := rfl
@[simp] theorem beginOperation_engine_output (e : EngineId) (s : State) : ((beginOperation e s).engine e).output = (s.engine e).output := by cases e <;> rfl
@[simp] theorem beginOperation_enc_enc_output (s : State) : (beginOperation .enc s).enc.output = s.enc.output := rfl
@[simp] theorem beginOperation_dec_dec_output (s : State) : (beginOperation .dec s).dec.output = s.dec.output := rfl
@[simp] theorem beginOperation_engine_len (e : EngineId) (s : State) : ((beginOperation e s).engine e).len = (s.engine e).len := by cases e <;> rfl
@[simp] theorem beginOperation_enc_enc_len (s : State) : (beginOperation .enc s).enc.len = s.enc.len := rfl
@[simp] theorem beginOperation_dec_dec_len (s : State) : (beginOperation .dec s).dec.len = s.dec.len := rfl
@[simp] theorem beginOperation_engine_input (e : EngineId) (s : State) : ((beginOperation e s).engine e).input = (s.engine e).input := by cases e <;> rfl
@[simp] theorem beginOperation_enc_enc_input (s : State) : (beginOperation .enc s).enc.input = s.enc.input := rfl
@[simp] theorem beginOperation_dec_dec_input (s : State) : (beginOperation .dec s).dec.input = s.dec.input := rfl
@[simp] theorem beginOperation_engine_idx (e : EngineId) (s : State) : ((beginOperation e s).engine e).idx = 0 := by cases e <;> rfl
@[simp] theorem beginOperation_enc_enc_idx (s : State) : (beginOperation .enc s).enc.idx = 0 := rfl
@[simp] theorem beginOperation_dec_dec_idx (s : State) : (beginOperation .dec s).dec.idx = 0 := rfl
@[simp] theorem beginOperation_engine_oidx (e : EngineId) (s : State) : ((beginOperation e s).engine e).oidx = 0 := by cases e <;> rfl
@[simp] theorem beginOperation_enc_enc_oidx (s : State) : (beginOperation .enc s).enc.oidx = 0 := rfl
@[simp] theorem beginOperation_dec_dec_oidx (s : State) : (beginOperation .dec s).dec.oidx = 0 := rfl
@[simp] theorem beginOperation_engine_draws (e : EngineId) (s : State) : ((beginOperation e s).engine e).draws = (s.engine e).draws := by cases e <;> rfl
@[simp] theorem beginOperation_enc_enc_draws (s : State) : (beginOperation .enc s).enc.draws = s.enc.draws := rfl
@[simp] theorem beginOperation_dec_dec_draws (s : State) : (beginOperation .dec s).dec.draws = s.dec.draws := rfl

@[simp] theorem complete_engine_phase (e : EngineId) (s : State) : ((complete e s).engine e).phase = .done := by cases e <;> rfl
@[simp] theorem complete_enc_enc_phase (s : State) : (complete .enc s).enc.phase = .done := rfl
@[simp] theorem complete_dec_dec_phase (s : State) : (complete .dec s).dec.phase = .done := rfl
@[simp] theorem complete_engine_err (e : EngineId) (s : State) : ((complete e s).engine e).err = (s.engine e).err := by cases e <;> rfl
@[simp] theorem complete_enc_enc_err (s : State) : (complete .enc s).enc.err = s.enc.err := rfl
@[simp] theorem complete_dec_dec_err (s : State) : (complete .dec s).dec.err = s.dec.err := rfl
@[simp] theorem complete_engine_olen (e : EngineId) (s : State) : ((complete e s).engine e).olen = (s.engine e).oidx := by cases e <;> rfl
@[simp] theorem complete_enc_enc_olen (s : State) : (complete .enc s).enc.olen = s.enc.oidx := rfl
@[simp] theorem complete_dec_dec_olen (s : State) : (complete .dec s).dec.olen = s.dec.oidx := rfl
@[simp] theorem complete_engine_output (e : EngineId) (s : State) : ((complete e s).engine e).output = (s.engine e).output := by cases e <;> rfl
@[simp] theorem complete_enc_enc_output (s : State) : (complete .enc s).enc.output = s.enc.output := rfl
@[simp] theorem complete_dec_dec_output (s : State) : (complete .dec s).dec.output = s.dec.output := rfl
@[simp] theorem complete_engine_len (e : EngineId) (s : State) : ((complete e s).engine e).len = (s.engine e).len := by cases e <;> rfl
@[simp] theorem complete_enc_enc_len (s : State) : (complete .enc s).enc.len = s.enc.len := rfl
@[simp] theorem complete_dec_dec_len (s : State) : (complete .dec s).dec.len = s.dec.len := rfl
@[simp] theorem complete_engine_input (e : EngineId) (s : State) : ((complete e s).engine e).input = (s.engine e).input := by cases e <;> rfl
@[simp] theorem complete_enc_enc_input (s : State) : (complete .enc s).enc.input = s.enc.input := rfl
@[simp] theorem complete_dec_dec_input (s : State) : (complete .dec s).dec.input = s.dec.input := rfl

@[simp] theorem encFetch_cfg (s : State) : (encFetch s).cfg = s.cfg := rfl
@[simp] theorem decFetch_cfg (s : State) : (decFetch s).cfg = s.cfg := rfl
@[simp] theorem encFetch_enc (s : State) : (encFetch s).enc = s.enc := rfl
@[simp] theorem decFetch_enc (s : State) : (decFetch s).enc = s.enc := rfl
@[simp] theorem encFetch_dec (s : State) : (encFetch s).dec = s.dec := rfl
@[simp] theorem decFetch_dec (s : State) : (decFetch s).dec = s.dec := rfl
@[simp] theorem encFetch_agenda (s : State) : (encFetch s).agenda = s.agenda := rfl
@[simp] theorem decFetch_agenda (s : State) : (decFetch s).agenda = s.agenda := rfl
@[simp] theorem encFetch_responses (s : State) : (encFetch s).responses = s.responses := rfl
@[simp] theorem decFetch_responses (s : State) : (decFetch s).responses = s.responses := rfl
@[simp] theorem encFetch_reads (s : State) : (encFetch s).reads = s.reads := rfl
@[simp] theorem decFetch_reads (s : State) : (decFetch s).reads = s.reads := rfl
@[simp] theorem encFetch_epoch (s : State) : (encFetch s).epoch = s.epoch := rfl
@[simp] theorem decFetch_epoch (s : State) : (decFetch s).epoch = s.epoch := rfl
@[simp] theorem encFetch_decGroup (s : State) : (encFetch s).decGroup = s.decGroup := rfl
@[simp] theorem decFetch_encGroup (s : State) : (decFetch s).encGroup = s.encGroup := rfl

@[simp] theorem respond_cfg (r : Response) (s : State) : (respond r s).cfg = s.cfg := rfl
@[simp] theorem respond_enc (r : Response) (s : State) : (respond r s).enc = s.enc := rfl
@[simp] theorem respond_dec (r : Response) (s : State) : (respond r s).dec = s.dec := rfl
@[simp] theorem respond_encGroup (r : Response) (s : State) : (respond r s).encGroup = s.encGroup := rfl
@[simp] theorem respond_decGroup (r : Response) (s : State) : (respond r s).decGroup = s.decGroup := rfl
@[simp] theorem respond_agenda (r : Response) (s : State) : (respond r s).agenda = s.agenda := rfl
@[simp] theorem respond_reads (r : Response) (s : State) : (respond r s).reads = s.reads := rfl
@[simp] theorem respond_epoch (r : Response) (s : State) : (respond r s).epoch = s.epoch := rfl
@[simp] theorem respond_responses (r : Response) (s : State) : (respond r s).responses = r :: s.responses := rfl

@[simp] theorem resetBlock_cfg (s : State) : (resetBlock s).cfg = s.cfg := rfl
@[simp] theorem resetBlock_agenda (s : State) : (resetBlock s).agenda = s.agenda := rfl
@[simp] theorem resetBlock_responses (s : State) : (resetBlock s).responses = s.responses := rfl
@[simp] theorem resetBlock_reads (s : State) : (resetBlock s).reads = s.reads := rfl
@[simp] theorem resetBlock_epoch (s : State) : (resetBlock s).epoch = s.epoch + 1 := rfl
@[simp] theorem resetBlock_encGroup (s : State) : (resetBlock s).encGroup = none := rfl
@[simp] theorem resetBlock_decGroup (s : State) : (resetBlock s).decGroup = none := rfl
@[simp] theorem resetBlock_enc (s : State) : (resetBlock s).enc = Engine.resetWith s.cfg .enc s.enc.draws := rfl
@[simp] theorem resetBlock_dec (s : State) : (resetBlock s).dec = Engine.resetWith s.cfg .dec s.dec.draws := rfl

@[simp] theorem resetWith_phase (c : Config) (e : EngineId) (d : Nat) : (Engine.resetWith c e d).phase = .idle := rfl
@[simp] theorem resetWith_err (c : Config) (e : EngineId) (d : Nat) : (Engine.resetWith c e d).err = none := rfl
@[simp] theorem resetWith_len (c : Config) (e : EngineId) (d : Nat) : (Engine.resetWith c e d).len = 0 := rfl
@[simp] theorem resetWith_olen (c : Config) (e : EngineId) (d : Nat) : (Engine.resetWith c e d).olen = 0 := rfl
@[simp] theorem resetWith_input (c : Config) (e : EngineId) (d : Nat) : (Engine.resetWith c e d).input = [] := rfl
@[simp] theorem resetWith_output (c : Config) (e : EngineId) (d : Nat) : (Engine.resetWith c e d).output = [] := rfl

end Sys2Proof.Machine
end

