-- ==== Sys2Proof/Laws/Ops.lean ====
section
/-! SUPPORT. One lemma per shared operation: everything it can do when it answers a next state. -/

namespace Sys2Proof.Machine

/-! ### Capacities -/

theorem fits_mono {cap : Option Nat} {m n : Nat} (h : fits cap n = true) (hmn : m ≤ n) : fits cap m = true := by
  cases cap with
  | none => rfl
  | some c => simp only [fits, decide_eq_true_eq] at *; omega

@[simp] theorem fits_none (n : Nat) : fits none n = true := rfl

@[simp] theorem fits_zero (cap : Option Nat) : fits cap 0 = true := by cases cap <;> simp [fits]

theorem clipLW_fits (cfg : Config) (v : Nat) : fitsLW cfg (clipLW cfg v) = true := by
  cases h : cfg.lw with
  | none => simp [fitsLW, h]
  | some w => simp only [fitsLW, clipLW, h, decide_eq_true_eq]; exact Nat.mod_lt _ (Nat.two_pow_pos w)

/-! ### Sequencing -/

@[simp] theorem andThen_next (s : State) (f : State → Host.Outcome State Fault Refusal) :
    andThen (.next s) f = f s := rfl

@[simp] theorem andThen_fault (x : Fault) (f : State → Host.Outcome State Fault Refusal) :
    andThen (.fault x) f = .fault x := rfl

@[simp] theorem andThen_refused (x : Refusal) (f : State → Host.Outcome State Fault Refusal) :
    andThen (.refused x) f = .refused x := rfl

theorem andThen_eq_next {r : Host.Outcome State Fault Refusal} {f : State → Host.Outcome State Fault Refusal}
    {t : State} : andThen r f = .next t ↔ ∃ s, r = .next s ∧ f s = .next t := by
  cases r <;> simp

theorem andThen_assoc (r : Host.Outcome State Fault Refusal) (f g : State → Host.Outcome State Fault Refusal) :
    andThen (andThen r f) g = andThen r (fun s => andThen (f s) g) := by
  cases r <;> rfl

theorem runEvents_append (a b : List Event) (s : State) :
    runEvents (a ++ b) s = andThen (runEvents a s) (runEvents b) := by
  induction a generalizing s with
  | nil => rfl
  | cons ev a ih =>
    simp only [List.cons_append, runEvents, andThen_assoc]
    congr 1
    funext t
    exact ih t

/-! ### START -/

@[simp] theorem start_none (e : EngineId) (s : State) : start e none s = beginOperation e (acceptStart e s) := rfl

@[simp] theorem start_some (e : EngineId) (x : Condition) (s : State) :
    start e (some x) s = raise e x (acceptStart e s) := rfl

theorem encStartError_cases (cfg : Config) (n : Nat) :
    (encStartError cfg n = none ∧ fits cfg.outCapEnc (encTotal n) = true) ∨
    (encStartError cfg n = some .allocationFailure ∧ fits cfg.outCapEnc (encTotal n) = false) := by
  cases h : fits cfg.outCapEnc (encTotal n) <;> simp [encStartError, h]

theorem decStartError_cases (cfg : Config) (m : Nat) :
    (decStartError cfg m = some .malformedLength ∧ m % 4 ≠ 0) ∨
    (decStartError cfg m = none ∧ m % 4 = 0 ∧ fits cfg.outCapDec (decEstimate m) = true) ∨
    (decStartError cfg m = some .allocationFailure ∧ m % 4 = 0 ∧ fits cfg.outCapDec (decEstimate m) = false) := by
  by_cases hm : m % 4 = 0
  · cases h : fits cfg.outCapDec (decEstimate m) <;> simp [decStartError, h, hm]
  · simp [decStartError, hm]

/-! ### The lanes of the decoder -/

theorem takeSymbol_none {k : Index} {s : State} (h : s.decGroup = none) : takeSymbol k s = .next s := by
  simp [takeSymbol, h]

theorem takeSymbol_some {k : Index} {s : State} {g : DecGroup} (h : s.decGroup = some g) :
    takeSymbol k s = .next { s with decGroup := some (formIndex k g) } := by
  simp [takeSymbol, h]

theorem takePad_none {s : State} (h : s.decGroup = none) : takePad s = .next s := by simp [takePad, h]

theorem takePad_early {s : State} {g : DecGroup} (h : s.decGroup = some g) (hl : g.lane = 1 ∨ g.lane = 2) :
    takePad s = .next (raise .dec .invalidCharacter s) := by
  simp [takePad, h, hl]

theorem takePad_late {s : State} {g : DecGroup} (h : s.decGroup = some g) (hl : ¬(g.lane = 1 ∨ g.lane = 2)) :
    takePad s = .next { s with decGroup := some (skipIndex g) } := by
  simp [takePad, h, hl]

theorem runLane_none {c : Byte} {s : State} (h : s.decGroup = none) : runLane c s = .next s := by
  simp [runLane, h]

theorem runLane_symbol {c : Byte} {k : Index} {s : State} {g : DecGroup} (h : s.decGroup = some g)
    (hc : inv c = some k) : runLane c s = .next { s with decGroup := some (formIndex k g) } := by
  simp [runLane, h, decodeCell_of_inv hc, exec_symbolOf, takeSymbol_some h]

theorem runLane_pad {c : Byte} {s : State} {g : DecGroup} (h : s.decGroup = some g) (hc : isPad c = true) :
    runLane c s = takePad s := by
  simp [runLane, h, decodeCell_of_isPad hc]

theorem runLane_invalid {c : Byte} {s : State} {g : DecGroup} (h : s.decGroup = some g)
    (hc : inSet65 c = false) : runLane c s = .next (raise .dec .invalidCharacter s) := by
  simp [runLane, h, decodeCell_of_invalid hc]

/-! ### Group steps and completion -/

/-- The encoder's store, when there is room. -/
theorem encStore_fits {s : State} {g : EncGroup} (h : s.encGroup = some g)
    (hf : fits s.cfg.outCapEnc (s.enc.oidx + 4) = true) :
    encStore s = .next (clearGroup .enc (s.setEngine .enc
      { s.enc with output := s.enc.output.writeCells s.enc.oidx (encCells s.enc.len s.enc.oidx g),
                   idx := s.enc.idx + 3, oidx := s.enc.oidx + 4 })) := by
  simp [encStore, h, hf]

/-- The encoder's group step in one equation: the fetch leaves no trace but the four stored cells. -/
theorem encGroupStep_eq (s : State) :
    encGroupStep s =
      if fits s.cfg.inCapEnc (min (s.enc.idx + 3) s.enc.len) = true then
        if fits s.cfg.outCapEnc (s.enc.oidx + 4) = true then
          .next { s with
            encGroup := none,
            enc := { s.enc with
              idx := s.enc.idx + 3, oidx := s.enc.oidx + 4,
              output := s.enc.output.writeCells s.enc.oidx (encCells s.enc.len s.enc.oidx
                (encGroupOf (encInput s s.enc.idx) (encInput s (s.enc.idx + 1)) (encInput s (s.enc.idx + 2)))) } }
        else .fault (.outputCellAbsent .enc)
      else .fault (.inputCellAbsent .enc) := by
  unfold encGroupStep
  split
  · cases ho : fits s.cfg.outCapEnc (s.enc.oidx + 4) with
    | true => rw [encStore_fits (s := encFetch s) rfl ho]; rfl
    | false => simp [encStore, encFetch, ho]
  · rfl

/-- Everything the encoder's group step can do when it answers a next state. -/
theorem encGroupStep_next {s t : State} (h : encGroupStep s = .next t) :
    fits s.cfg.inCapEnc (min (s.enc.idx + 3) s.enc.len) = true ∧
    fits s.cfg.outCapEnc (s.enc.oidx + 4) = true ∧
    t = { s with
      encGroup := none,
      enc := { s.enc with
        idx := s.enc.idx + 3, oidx := s.enc.oidx + 4,
        output := s.enc.output.writeCells s.enc.oidx (encCells s.enc.len s.enc.oidx
          (encGroupOf (encInput s s.enc.idx) (encInput s (s.enc.idx + 1)) (encInput s (s.enc.idx + 2)))) } } := by
  rw [encGroupStep_eq] at h
  split at h
  · rename_i hi
    split at h
    · rename_i ho; exact ⟨hi, ho, (Host.Outcome.next.inj h).symm⟩
    · cases h
  · cases h

/-- Everything the decoder's store can do when it answers a next state. -/
theorem decStore_next {s t : State} (h : decStore s = .next t) :
    (s.decGroup = none ∧ t = s) ∨
    ∃ g, s.decGroup = some g ∧ fits s.cfg.outCapDec (s.dec.oidx + (groupBytes g).length) = true ∧
      t = { s with
        decGroup := none,
        dec := { s.dec with
          idx := s.dec.idx + 4, oidx := s.dec.oidx + (groupBytes g).length,
          output := s.dec.output.writeCells s.dec.oidx (groupBytes g) } } := by
  unfold decStore at h
  split at h
  · rename_i hg; exact .inl ⟨hg, (Host.Outcome.next.inj h).symm⟩
  · rename_i g hg
    split at h
    · rename_i ho; exact .inr ⟨g, hg, ho, (Host.Outcome.next.inj h).symm⟩
    · cases h

/-- Everything the encoder's turn can do when it answers a next state. -/
theorem encStep_next {s t : State} (h : encStep s = .next t) :
    (s.enc.phase ≠ .busy ∧ t = s) ∨
    (s.enc.phase = .busy ∧ s.enc.len ≤ s.enc.idx ∧ t = complete .enc s) ∨
    (s.enc.phase = .busy ∧ s.enc.idx < s.enc.len ∧ encGroupStep s = .next t) := by
  unfold encStep at h
  split at h
  · rename_i hb
    split at h
    · rename_i hlt; exact .inr (.inr ⟨hb, hlt, h⟩)
    · rename_i hge; exact .inr (.inl ⟨hb, Nat.le_of_not_lt hge, (Host.Outcome.next.inj h).symm⟩)
  · rename_i hb; exact .inl ⟨hb, (Host.Outcome.next.inj h).symm⟩

/-- Everything the decoder's turn can do when it answers a next state. -/
theorem decStep_next {s t : State} (h : decStep s = .next t) :
    (s.dec.phase ≠ .busy ∧ t = s) ∨
    (s.dec.phase = .busy ∧ s.dec.len ≤ s.dec.idx ∧ t = complete .dec s) ∨
    (s.dec.phase = .busy ∧ s.dec.idx < s.dec.len ∧ decGroupStep s = .next t) := by
  unfold decStep at h
  split at h
  · rename_i hb
    split at h
    · rename_i hlt; exact .inr (.inr ⟨hb, hlt, h⟩)
    · rename_i hge; exact .inr (.inl ⟨hb, Nat.le_of_not_lt hge, (Host.Outcome.next.inj h).symm⟩)
  · rename_i hb; exact .inl ⟨hb, (Host.Outcome.next.inj h).symm⟩

/-! ### Host actions -/

theorem hostWriteLen_next {e : EngineId} {v : Nat} {s t : State} (h : hostWriteLen e v s = .next t) :
    fits (inCap s.cfg e) v = true ∧
    (((s.engine e).phase = .busy ∧ t = s) ∨
     ((s.engine e).phase ≠ .busy ∧ t = s.setEngine e { s.engine e with len := v })) := by
  unfold hostWriteLen at h
  split at h
  · rename_i hf
    split at h
    · rename_i hb; exact ⟨hf, .inl ⟨hb, (Host.Outcome.next.inj h).symm⟩⟩
    · rename_i hb; exact ⟨hf, .inr ⟨hb, (Host.Outcome.next.inj h).symm⟩⟩
  · cases h

theorem hostWriteIn_next {e : EngineId} {i : Nat} {c : Byte} {s t : State} (h : hostWriteIn e i c s = .next t) :
    fits (inCap s.cfg e) (i + 1) = true ∧
    (((s.engine e).phase = .busy ∧ t = s) ∨
     ((s.engine e).phase ≠ .busy ∧
      t = s.setEngine e { s.engine e with input := (s.engine e).input.write i c })) := by
  unfold hostWriteIn at h
  split at h
  · rename_i hf
    split at h
    · rename_i hb; exact ⟨hf, .inl ⟨hb, (Host.Outcome.next.inj h).symm⟩⟩
    · rename_i hb; exact ⟨hf, .inr ⟨hb, (Host.Outcome.next.inj h).symm⟩⟩
  · cases h

theorem hostReadOut_next {e : EngineId} {i : Nat} {s t : State} (h : hostReadOut e i s = .next t) :
    fits (outCap s.cfg e) (i + 1) = true ∧
    ∃ c n, t = { s with responses := .cell e i c :: s.responses, reads := n } ∧
      (validCell e i s = some c ∧ n = s.reads ∨ validCell e i s = none ∧ n = s.reads + 1) := by
  unfold hostReadOut at h
  split at h
  · rename_i hf
    split at h
    · rename_i c hc
      exact ⟨hf, c, s.reads, (Host.Outcome.next.inj h).symm, .inl ⟨hc, rfl⟩⟩
    · rename_i hc
      exact ⟨hf, _, s.reads + 1, (Host.Outcome.next.inj h).symm, .inr ⟨hc, rfl⟩⟩
  · cases h

/-- A command word runs as ENCODE, DECODE or NOP, or is reserved and ignored. -/
theorem hostCmd_cases (w : Byte) (s : State) :
    (decodeCommand w = .ok .encode ∧ hostCmd w s = execEncode s) ∨
    (decodeCommand w = .ok .decode ∧ hostCmd w s = execDecode s) ∨
    ((∃ b, decodeCommand w = .ok (.nop b)) ∧ hostCmd w s = .next s) ∨
    (decodeCommand w = .error (.reservedCommand w) ∧ hostCmd w s = .next s) := by
  unfold hostCmd decodeCommand
  by_cases h2 : w.extractLsb' 2 6 = 0#6
  · by_cases h0 : w.extractLsb' 0 1 = 0#1
    · exact .inr (.inr (.inl ⟨⟨_, by rw [if_neg (by simp [h2]), if_pos h0]⟩, by
        rw [if_neg (by simp [h2]), if_pos h0]; rfl⟩))
    · by_cases h1 : w.extractLsb' 1 1 = 0#1
      · exact .inl ⟨by simp [h2, h0, h1], by simp only [h2, h0, h1]; rfl⟩
      · exact .inr (.inl ⟨by simp [h2, h0, h1], by simp only [h2, h0, h1]; rfl⟩)
  · exact .inr (.inr (.inr ⟨by simp [h2], by simp [h2]⟩))

end Sys2Proof.Machine
end

