-- ==== Sys2Proof/Laws/PerInstr.lean ====
section
/-! SUPPORT. Laws of every instruction as syntax, one lemma per constructor. `WordKind`: the word of an instruction is
a command word (`RSV` zero) and no character, or a character of the 65-symbol set and no command word (30_encoding.md
R91, R94, R104). -/

namespace Sys2Proof.Laws.WordKind

/-- The word is of exactly one of the two kinds. -/
def Statement (i : Instr) : Prop :=
  ((word i).extractLsb' 2 6 = 0#6 ∧ Machine.inSet65 (word i) = false) ∨
  ((word i).extractLsb' 2 6 ≠ 0#6 ∧ Machine.inSet65 (word i) = true)

theorem encode : Statement .encode := .inl (by decide)
theorem decode : Statement .decode := .inl (by decide)
theorem nop (eng : BitVec 1) : Statement (.nop eng) := .inl (by revert eng; decide)
theorem sym0 : Statement .sym0 := .inr (by decide)
theorem sym1 : Statement .sym1 := .inr (by decide)
theorem sym2 : Statement .sym2 := .inr (by decide)
theorem sym3 : Statement .sym3 := .inr (by decide)
theorem sym4 : Statement .sym4 := .inr (by decide)
theorem sym5 : Statement .sym5 := .inr (by decide)
theorem sym6 : Statement .sym6 := .inr (by decide)
theorem sym7 : Statement .sym7 := .inr (by decide)
theorem sym8 : Statement .sym8 := .inr (by decide)
theorem sym9 : Statement .sym9 := .inr (by decide)
theorem sym10 : Statement .sym10 := .inr (by decide)
theorem sym11 : Statement .sym11 := .inr (by decide)
theorem sym12 : Statement .sym12 := .inr (by decide)
theorem sym13 : Statement .sym13 := .inr (by decide)
theorem sym14 : Statement .sym14 := .inr (by decide)
theorem sym15 : Statement .sym15 := .inr (by decide)
theorem sym16 : Statement .sym16 := .inr (by decide)
theorem sym17 : Statement .sym17 := .inr (by decide)
theorem sym18 : Statement .sym18 := .inr (by decide)
theorem sym19 : Statement .sym19 := .inr (by decide)
theorem sym20 : Statement .sym20 := .inr (by decide)
theorem sym21 : Statement .sym21 := .inr (by decide)
theorem sym22 : Statement .sym22 := .inr (by decide)
theorem sym23 : Statement .sym23 := .inr (by decide)
theorem sym24 : Statement .sym24 := .inr (by decide)
theorem sym25 : Statement .sym25 := .inr (by decide)
theorem sym26 : Statement .sym26 := .inr (by decide)
theorem sym27 : Statement .sym27 := .inr (by decide)
theorem sym28 : Statement .sym28 := .inr (by decide)
theorem sym29 : Statement .sym29 := .inr (by decide)
theorem sym30 : Statement .sym30 := .inr (by decide)
theorem sym31 : Statement .sym31 := .inr (by decide)
theorem sym32 : Statement .sym32 := .inr (by decide)
theorem sym33 : Statement .sym33 := .inr (by decide)
theorem sym34 : Statement .sym34 := .inr (by decide)
theorem sym35 : Statement .sym35 := .inr (by decide)
theorem sym36 : Statement .sym36 := .inr (by decide)
theorem sym37 : Statement .sym37 := .inr (by decide)
theorem sym38 : Statement .sym38 := .inr (by decide)
theorem sym39 : Statement .sym39 := .inr (by decide)
theorem sym40 : Statement .sym40 := .inr (by decide)
theorem sym41 : Statement .sym41 := .inr (by decide)
theorem sym42 : Statement .sym42 := .inr (by decide)
theorem sym43 : Statement .sym43 := .inr (by decide)
theorem sym44 : Statement .sym44 := .inr (by decide)
theorem sym45 : Statement .sym45 := .inr (by decide)
theorem sym46 : Statement .sym46 := .inr (by decide)
theorem sym47 : Statement .sym47 := .inr (by decide)
theorem sym48 : Statement .sym48 := .inr (by decide)
theorem sym49 : Statement .sym49 := .inr (by decide)
theorem sym50 : Statement .sym50 := .inr (by decide)
theorem sym51 : Statement .sym51 := .inr (by decide)
theorem sym52 : Statement .sym52 := .inr (by decide)
theorem sym53 : Statement .sym53 := .inr (by decide)
theorem sym54 : Statement .sym54 := .inr (by decide)
theorem sym55 : Statement .sym55 := .inr (by decide)
theorem sym56 : Statement .sym56 := .inr (by decide)
theorem sym57 : Statement .sym57 := .inr (by decide)
theorem sym58 : Statement .sym58 := .inr (by decide)
theorem sym59 : Statement .sym59 := .inr (by decide)
theorem sym60 : Statement .sym60 := .inr (by decide)
theorem sym61 : Statement .sym61 := .inr (by decide)
theorem sym62 : Statement .sym62 := .inr (by decide)
theorem sym63 : Statement .sym63 := .inr (by decide)
theorem symPad : Statement .symPad := .inr (by decide)

end Sys2Proof.Laws.WordKind
end

