-- ==== Sys2Proof/Tests/Slice0.lean ====
section
/-! SUPPORT. Tests of the model, with expected results from spec/95_test_vectors.md and the encoding tables, and a
concrete witness for the hypotheses of every obligation that has some (`witness_<obligation>`). -/

namespace Sys2Proof.Tests

open Sys2Proof.Machine

/-! ### Small states -/

/-- A small bounded instance: `2^4 > 8 + 4`. -/
def smallCfg : Config :=
  { inCapEnc := some 6, outCapEnc := some 8, inCapDec := some 8, outCapDec := some 6, lw := some 4 }

/-- The capacities of program P5 of spec/95_test_vectors.md. -/
def tightCfg : Config :=
  { inCapEnc := some 4, outCapEnc := some 4, inCapDec := some 4, outCapDec := some 3, lw := some 4 }

/-- Cells from index 0 on. -/
def cellsOf (bs : List Byte) : Memory := Memory.writeCells [] 0 bs

/-- An engine that is not BUSY, with a message written and its length set. -/
def idleWith (bs : List Byte) : Engine :=
  { phase := .idle, err := none, len := bs.length, olen := 0, idx := 0, oidx := 0,
    input := cellsOf bs, output := [], draws := 0 }

/-- The same engine BUSY, `i` input cells and `out` output cells into its operation. -/
def busyWith (bs : List Byte) (i : Nat) (out : List Byte) : Engine :=
  { idleWith bs with phase := .busy, idx := i, oidx := out.length, output := cellsOf out }

/-- The same engine DONE with a result. -/
def doneWith (bs out : List Byte) : Engine :=
  { idleWith bs with phase := .done, olen := out.length, output := cellsOf out }

/-- The same engine in ERROR. -/
def errorWith (bs : List Byte) (x : Condition) : Engine :=
  { idleWith bs with phase := .error, err := some x }

/-- A state between steps with these two engines. -/
def stateOf (cfg : Config) (enc dec : Engine) : State :=
  { cfg := cfg, enc := enc, dec := dec, encGroup := none, decGroup := none, agenda := [], responses := [],
    reads := 0, epoch := 0 }

/-- Both engines IDLE, nothing written. -/
def quiet : State := stateOf smallCfg (idleWith []) (idleWith [])

/-- "fo" in the encoder and "Zm8=" in the decoder, both IDLE. -/
def ready : State := stateOf smallCfg (idleWith [0x66, 0x6F]) (idleWith [0x5A, 0x6D, 0x38, 0x3D])

/-- Both engines BUSY, before their first step. -/
def busyStart : State :=
  stateOf smallCfg (busyWith [0x66, 0x6F] 0 []) (busyWith [0x5A, 0x6D, 0x38, 0x3D] 0 [])

/-- Both engines BUSY, only the completion step to come. -/
def busyEnd : State :=
  stateOf smallCfg (busyWith [0x66, 0x6F] 3 [0x5A, 0x6D, 0x38, 0x3D])
    (busyWith [0x5A, 0x6D, 0x38, 0x3D] 4 [0x66, 0x6F])

/-- Both engines DONE. -/
def finished : State :=
  stateOf smallCfg (doneWith [0x66, 0x6F] [0x5A, 0x6D, 0x38, 0x3D])
    (doneWith [0x5A, 0x6D, 0x38, 0x3D] [0x66, 0x6F])

/-- Both engines in ERROR. -/
def failed : State :=
  stateOf smallCfg (errorWith [0x66, 0x6F] .allocationFailure) (errorWith [0x5A] .malformedLength)

/-- A BUSY decoder whose only group has these four cells. -/
def decoding (bs : List Byte) : State := stateOf smallCfg (idleWith []) (busyWith bs 0 [])

/-- A decoder inside its group step: this lane takes the next cell, and the third cell is `c3`. -/
def inLane (lane : Nat) (c3 : Byte) : State :=
  { decoding [0x51, 0x51, c3, 0x41] with
    decGroup := some { c1 := 0x51, c2 := 0x51, c3 := c3, c4 := 0x41, i1 := none, i2 := none, i3 := none,
                       i4 := none, lane := lane } }

/-- `s` with these events to come. -/
def facing (evs : List Event) (s : State) : State := { s with agenda := evs }

/-! ### The invariant holds in the states above -/

theorem engineInv_of_checks {cfg : Config} {e : EngineId} {x : Engine}
    (h : x.input.wf ∧ x.output.wf ∧ (∀ p ∈ x.input, fits (inCap cfg e) (p.1 + 1) = true) ∧
      (∀ p ∈ x.output, fits (outCap cfg e) (p.1 + 1) = true) ∧ (x.err ≠ none ↔ x.phase = .error) ∧
      (x.phase ≠ .done → x.olen = 0) ∧ fits (inCap cfg e) x.len = true ∧
      (x.phase = .done → fits (outCap cfg e) x.olen = true) ∧
      (x.phase = .done → ∀ j < x.olen, (x.output.read j).isSome = true)) : EngineInv cfg e x :=
  ⟨h.1, h.2.1, h.2.2.1, h.2.2.2.1, h.2.2.2.2.1, h.2.2.2.2.2.1, h.2.2.2.2.2.2.1, h.2.2.2.2.2.2.2.1,
    h.2.2.2.2.2.2.2.2⟩

theorem quiet_inv : quiet.Inv :=
  ⟨engineInv_of_checks (by decide), engineInv_of_checks (by decide), .inl rfl, nofun, nofun, rfl, rfl⟩

theorem ready_inv : ready.Inv :=
  ⟨engineInv_of_checks (by decide), engineInv_of_checks (by decide), .inl rfl, nofun, nofun, rfl, rfl⟩

theorem busyStart_inv : busyStart.Inv :=
  ⟨engineInv_of_checks (by decide), engineInv_of_checks (by decide), .inl rfl,
    fun _ => ⟨by decide, by decide, by decide, by decide, by decide⟩,
    fun _ => ⟨by decide, by decide, by decide, by decide, by decide, by decide⟩, rfl, rfl⟩

theorem busyEnd_inv : busyEnd.Inv :=
  ⟨engineInv_of_checks (by decide), engineInv_of_checks (by decide), .inl rfl,
    fun _ => ⟨by decide, by decide, by decide, by decide, by decide⟩,
    fun _ => ⟨by decide, by decide, by decide, by decide, by decide, by decide⟩, rfl, rfl⟩

theorem finished_inv : finished.Inv :=
  ⟨engineInv_of_checks (by decide), engineInv_of_checks (by decide), .inl rfl, nofun, nofun, rfl, rfl⟩

theorem failed_inv : failed.Inv :=
  ⟨engineInv_of_checks (by decide), engineInv_of_checks (by decide), .inr rfl, nofun, nofun, rfl, rfl⟩

/-! ### Well-formedness refuses ill-formed terms -/

theorem test_wf_cfg : smallCfg.wellFormed = true ∧ Config.unbounded.wellFormed = true := by decide

theorem test_wf_cfg_lw_too_narrow : Config.wellFormed { smallCfg with lw := some 3 } = false := by decide

theorem test_wf_cfg_boundary :
    Config.wellFormed { smallCfg with inCapDec := some 11 } = true ∧
    Config.wellFormed { smallCfg with inCapDec := some 12 } = false := by decide

theorem test_wf_cfg_unbounded_buffer : Config.wellFormed { smallCfg with outCapDec := none } = false := by decide

theorem test_wf_writeLen :
    (HostAction.writeLen .enc 6).wellFormed smallCfg = true ∧
    (HostAction.writeLen .enc 7).wellFormed smallCfg = false := by decide

theorem test_wf_writeIn :
    (HostAction.writeIn .dec 7 0x41).wellFormed smallCfg = true ∧
    (HostAction.writeIn .dec 8 0x41).wellFormed smallCfg = false := by decide

theorem test_wf_readOut :
    (HostAction.readOut .dec 5).wellFormed smallCfg = true ∧
    (HostAction.readOut .dec 6).wellFormed smallCfg = false := by decide

/-- The bit of NOP is one bit, so there is no ill-formed instruction. -/
theorem test_wf_instr : (Instr.nop 0).wellFormed = true ∧ (Instr.nop 1).wellFormed = true := by decide

/-! ### Decoding: every row's word, written out from 30_encoding.md R90, R98, R99 -/

theorem test_decode_commands :
    decodeTableWord 8 0b00000001 = some .encode ∧ decodeTableWord 8 0b00000011 = some .decode ∧
    decodeTableWord 8 0b00000000 = some (.nop 0) ∧ decodeTableWord 8 0b00000010 = some (.nop 1) := by decide

theorem test_decode_A_to_M :
    [0b01000001, 0b01000010, 0b01000011, 0b01000100, 0b01000101, 0b01000110, 0b01000111, 0b01001000, 0b01001001,
      0b01001010, 0b01001011, 0b01001100, 0b01001101].map (decodeTableWord 8) =
    [some .sym0, some .sym1, some .sym2, some .sym3, some .sym4, some .sym5, some .sym6, some .sym7, some .sym8,
      some .sym9, some .sym10, some .sym11, some .sym12] := by decide

theorem test_decode_N_to_Z :
    [0b01001110, 0b01001111, 0b01010000, 0b01010001, 0b01010010, 0b01010011, 0b01010100, 0b01010101, 0b01010110,
      0b01010111, 0b01011000, 0b01011001, 0b01011010].map (decodeTableWord 8) =
    [some .sym13, some .sym14, some .sym15, some .sym16, some .sym17, some .sym18, some .sym19, some .sym20,
      some .sym21, some .sym22, some .sym23, some .sym24, some .sym25] := by decide

theorem test_decode_a_to_m :
    [0b01100001, 0b01100010, 0b01100011, 0b01100100, 0b01100101, 0b01100110, 0b01100111, 0b01101000, 0b01101001,
      0b01101010, 0b01101011, 0b01101100, 0b01101101].map (decodeTableWord 8) =
    [some .sym26, some .sym27, some .sym28, some .sym29, some .sym30, some .sym31, some .sym32, some .sym33,
      some .sym34, some .sym35, some .sym36, some .sym37, some .sym38] := by decide

theorem test_decode_n_to_z :
    [0b01101110, 0b01101111, 0b01110000, 0b01110001, 0b01110010, 0b01110011, 0b01110100, 0b01110101, 0b01110110,
      0b01110111, 0b01111000, 0b01111001, 0b01111010].map (decodeTableWord 8) =
    [some .sym39, some .sym40, some .sym41, some .sym42, some .sym43, some .sym44, some .sym45, some .sym46,
      some .sym47, some .sym48, some .sym49, some .sym50, some .sym51] := by decide

theorem test_decode_digits :
    [0b00110000, 0b00110001, 0b00110010, 0b00110011, 0b00110100, 0b00110101, 0b00110110, 0b00110111, 0b00111000,
      0b00111001].map (decodeTableWord 8) =
    [some .sym52, some .sym53, some .sym54, some .sym55, some .sym56, some .sym57, some .sym58, some .sym59,
      some .sym60, some .sym61] := by decide

theorem test_decode_plus_slash_pad :
    decodeTableWord 8 0b00101011 = some .sym62 ∧ decodeTableWord 8 0b00101111 = some .sym63 ∧
    decodeTableWord 8 0b00111101 = some .symPad := by decide

/-- Reserved commands (R91) and invalid cells (R100, spec/95 section 2), by name. -/
theorem test_decode_rejects :
    decodeCommand 0x04 = .error (.reservedCommand 0x04) ∧ decodeCommand 0x81 = .error (.reservedCommand 0x81) ∧
    decodeCell 0x2D = .error (.invalidCell 0x2D) ∧ decodeCell 0x5F = .error (.invalidCell 0x5F) ∧
    decode [0x7F] = .error (.noRow 0x7F) ∧ decode [] = .error .noWord := by decide

/-- Every instruction is one word of 8 bits (R105): what stands above belongs to what follows. -/
theorem test_decode_longer_rows :
    decodeTableWord 16 0x0049 = some .sym8 ∧ decodeTableWord 16 0x0349 = some .sym8 ∧
    decodeTableWord 32 0x07000060 = none ∧ decodeTableWord 24 0x61 = some .sym26 := by decide

/-! ### The alphabet and the lengths: spec/95 section 2 and 3 -/

theorem test_alpha :
    [0, 25, 26, 51, 52, 61, 62, 63].map alpha = [0x41, 0x5A, 0x61, 0x7A, 0x30, 0x39, 0x2B, 0x2F] := by decide

theorem test_inv :
    [0x41, 0x5A, 0x61, 0x7A, 0x30, 0x39, 0x2B, 0x2F].map inv =
      [some 0, some 25, some 26, some 51, some 52, some 61, some 62, some 63] := by decide

theorem test_inv_edges :
    [0x40, 0x5B, 0x60, 0x7B, 0x3A, 0x2A, 0x2C, 0x2E, 0x3D, 0x2D, 0x5F, 0x00, 0x0A, 0x80, 0xFF].map inv =
      List.replicate 15 none := by decide

theorem test_lengths :
    (List.range 10).map encTotal = [0, 4, 4, 4, 8, 8, 8, 12, 12, 12] ∧
    (List.range 10).map encData = [0, 2, 3, 4, 6, 7, 8, 10, 11, 12] ∧
    (List.range 10).map encPad = [0, 2, 1, 0, 2, 1, 0, 2, 1, 0] ∧
    [0, 4, 8, 12, 16].map decEstimate = [0, 3, 6, 9, 12] := by decide

/-- S1 and E9 of spec/95: `enc`. -/
theorem test_encText :
    encText [0x54, 0x65, 0x73, 0x74] = [0x56, 0x47, 0x56, 0x7A, 0x64, 0x41, 0x3D, 0x3D] ∧
    encText [0xFB, 0xEF, 0xBE] = [0x2B, 0x2B, 0x2B, 0x2B] := by decide

/-- A12, A18, X13 and X17 of spec/95: `dec`. -/
theorem test_decText :
    decText none [0x41, 0x42, 0x43, 0x44] = .ok [0x00, 0x10, 0x83] ∧
    decText none [0x51, 0x51, 0x3D, 0x41] = .ok [0x41] ∧
    decText none [0x51, 0x51, 0x3D, 0x00] = .error .invalidCharacter ∧
    decText (some 5) [0x5A, 0x6D, 0x39, 0x76, 0x59, 0x67, 0x3D, 0x3D] = .error .allocationFailure := by decide

/-! ### The commands: spec/95 sections 6 and 7 -/

/-- What a test looks at: STATUS, LEN, OLEN, and the output cells below a bound. -/
def view (e : EngineId) (n : Nat) (r : Host.Outcome State Fault Refusal) :
    Option (Byte × Nat × Nat × List (Option Byte)) :=
  match r with
  | .next t =>
    let x := t.engine e
    some (statusWord x, x.len, x.olen, (List.range n).map x.output.read)
  | _ => none

/-- P5: ENCODE accepted. -/
theorem test_encode_accepted : view .enc 0 (exec .encode ready) = some (0x01, 2, 0, []) := by decide

/-- P5: `T(4) = 8 > 4`, AllocationFailure; the decoder untouched. -/
theorem test_encode_allocation :
    view .enc 1 (exec .encode (stateOf tightCfg (doneWith [1, 2, 3, 4] [0x5A, 0x6D, 0x38, 0x3D]) (idleWith []))) =
      some (0x0F, 4, 0, [none]) := by decide

/-- P2: DECODE accepted. -/
theorem test_decode_accepted : view .dec 0 (exec .decode ready) = some (0x01, 4, 0, []) := by decide

/-- X18: the length test comes before the capacity test. -/
theorem test_decode_malformed :
    view .dec 0 (exec .decode (stateOf { tightCfg with outCapDec := some 0, inCapDec := some 6 } (idleWith [])
      (idleWith [1, 2, 3, 4, 5, 6]))) = some (0x0B, 6, 0, []) := by decide

/-- K1. -/
theorem test_nop : hostAct (.cmd 0x00) quiet = .next quiet ∧ hostAct (.cmd 0x02) quiet = .next quiet :=
  ⟨rfl, rfl⟩

/-- K2. -/
theorem test_reserved :
    hostAct (.cmd 0x04) quiet = .next quiet ∧ hostAct (.cmd 0x05) quiet = .next quiet ∧
    hostAct (.cmd 0x81) quiet = .next quiet ∧ hostAct (.cmd 0xFF) quiet = .next quiet := ⟨rfl, rfl, rfl, rfl⟩

/-- K7: writes to a BUSY engine are ignored. -/
theorem test_busy_writes :
    hostAct (.writeLen .enc 1) busyStart = .next busyStart ∧
    hostAct (.writeIn .enc 0 0x00) busyStart = .next busyStart ∧
    hostAct (.cmd 0x01) busyStart = .next busyStart := ⟨rfl, rfl, rfl⟩

/-- R92, R93: writes to the read-only registers are ignored. -/
theorem test_read_only_registers :
    hostAct (.writeStatus .enc 0xFF) finished = .next finished ∧
    hostAct (.writeOlen .enc 7) finished = .next finished := ⟨rfl, rfl⟩

/-- K5: reading STATUS clears nothing. -/
theorem test_read_status :
    hostAct (.readStatus .dec) failed = .next { failed with responses := [.status .dec 0x0B] } := rfl

/-- R78: the register numbers. -/
theorem test_register_numbers :
    readRegister .enc 0 = some (.readStatus .enc) ∧ readRegister .dec 2 = some (.readOlen .dec) ∧
    writeRegister .dec 8 1 = some (.writeLen .dec 8) ∧ readRegister .enc 3 = none := by decide

/-- K9: the fourth output cell of a result of four. -/
theorem test_read_out :
    hostAct (.readOut .enc 3) finished = .next { finished with responses := [.cell .enc 3 0x3D] } := rfl

/-- K10: Reset. -/
theorem test_reset :
    view .enc 1 (hostAct .reset busyEnd) = some (0x00, 0, 0, [none]) ∧
    view .dec 1 (hostAct .reset busyEnd) = some (0x00, 0, 0, [none]) := by decide

/-! ### The characters: one lane each, and all 64 in whole groups -/

/-- What a lane leaves: the four indices and the next lane. -/
def lanes (r : Host.Outcome State Fault Refusal) :
    Option (Option Index × Option Index × Option Index × Option Index × Nat) :=
  match r with
  | .next t => t.decGroup.map fun g => (g.i1, g.i2, g.i3, g.i4, g.lane)
  | _ => none

theorem test_sym_lane1 : lanes (exec .sym25 (inLane 1 0x3D)) = some (some 25, none, none, none, 2) := by decide

theorem test_sym_lane2 : lanes (exec .sym16 (inLane 2 0x3D)) = some (none, some 16, none, none, 3) := by decide

theorem test_sym_lane3 : lanes (exec .sym9 (inLane 3 0x4A)) = some (none, none, some 9, none, 4) := by decide

theorem test_sym_lane4 : lanes (exec .sym0 (inLane 4 0x4A)) = some (none, none, none, some 0, 5) := by decide

/-- A18: after padding in lane 3 the fourth cell forms no index. -/
theorem test_sym_lane4_after_pad : lanes (exec .sym0 (inLane 4 0x3D)) = some (none, none, none, none, 5) := by decide

theorem test_pad_lane3 : lanes (exec .symPad (inLane 3 0x3D)) = some (none, none, none, none, 4) := by decide

/-- X10: `=` at position 1. -/
theorem test_pad_lane1 : view .dec 0 (exec .symPad (inLane 1 0x41)) = some (0x07, 4, 0, []) := by decide

/-- P2: "Zm9v" gives "foo". -/
theorem test_group_Zm9v :
    view .dec 3 (engineStep .dec (decoding [0x5A, 0x6D, 0x39, 0x76])) =
      some (0x01, 4, 0, [some 0x66, some 0x6F, some 0x6F]) := by decide

/-- X13: an invalid cell at position 4 after `=`. -/
theorem test_group_invalid_fourth :
    view .dec 1 (engineStep .dec (decoding [0x51, 0x51, 0x3D, 0x00])) = some (0x07, 4, 0, [none]) := by decide

/-- P5: the encoder's group step on "fo". -/
theorem test_group_fo :
    view .enc 5 (engineStep .enc busyStart) =
      some (0x01, 2, 0, [some 0x5A, some 0x6D, some 0x38, some 0x3D, none]) := by decide

/-- P5: both completion steps. -/
theorem test_completion :
    view .enc 0 (engineStep .enc busyEnd) = some (0x02, 2, 4, []) ∧
    view .dec 0 (engineStep .dec busyEnd) = some (0x02, 4, 2, []) := by decide

/-- Section 5 of spec/95: E17's text, group by group, the 64 characters once each in table order. -/
theorem test_all_characters :
    decGroups ((List.range 64).map fun k => word (symbolOf (BitVec.ofNat 6 k))) = some
      [0x00, 0x10, 0x83, 0x10, 0x51, 0x87, 0x20, 0x92, 0x8B, 0x30, 0xD3, 0x8F, 0x41, 0x14, 0x93, 0x51, 0x55, 0x97,
        0x61, 0x96, 0x9B, 0x71, 0xD7, 0x9F, 0x82, 0x18, 0xA3, 0x92, 0x59, 0xA7, 0xA2, 0x9A, 0xAB, 0xB2, 0xDB, 0xAF,
        0xC3, 0x1C, 0xB3, 0xD3, 0x5D, 0xB7, 0xE3, 0x9E, 0xBB, 0xF3, 0xDF, 0xBF] := by decide

/-! ### The first step after reset, with a word placed -/

/-- K11: ENCODE after reset with nothing written is accepted. -/
theorem test_first_step_encode :
    view .enc 0 (step (State.reset.withFetchWord 8 0x01)) = some (0x01, 0, 0, []) := by decide

theorem test_first_step_decode :
    view .dec 0 (step (State.reset.withFetchWord 8 0x03)) = some (0x01, 0, 0, []) := by decide

theorem test_first_step_nop : step (State.reset.withFetchWord 8 0x02) = .next State.reset := rfl

/-- "AAA/": `Y3 = 63`. -/
theorem test_first_step_character :
    view .dec 3 (step (State.reset.withFetchWord 8 0x2F)) =
      some (0x01, 4, 0, [some 0x00, some 0x00, some 0x3F]) := by decide

/-- A3, "AAA=": two bytes. -/
theorem test_first_step_pad :
    view .dec 3 (step (State.reset.withFetchWord 8 0x3D)) =
      some (0x01, 4, 0, [some 0x00, some 0x00, none]) := by decide

/-! ### Witnesses: states and operands that meet the obligations' hypotheses -/

theorem witness_DecodeAndEncodeAreInverse :
    Instr.wellFormed .sym0 = true ∧ decode [0x41, 0x99] = .ok (.sym0, [0x99]) ∧
    decode [0x03] = .ok (.decode, []) := by decide

theorem witness_CommandDecodeIsComplete :
    decodeCommand 0x01 = .ok .encode ∧ decodeCommand 0x03 = .ok .decode ∧ decodeCommand 0x00 = .ok (.nop 0) ∧
    decodeCommand 0x02 = .ok (.nop 1) ∧ (0x04#8 ≤ 0x04#8 ∧ decodeCommand 0x04 = .error (.reservedCommand 0x04)) ∧
    (0x04#8 ≤ 0xFF#8 ∧ decodeCommand 0xFF = .error (.reservedCommand 0xFF)) := by decide

theorem witness_AlphaFollowsItsRanges :
    (0#6).toNat ≤ 25 ∧ (25#6).toNat ≤ 25 ∧ (26 ≤ (26#6).toNat ∧ (51#6).toNat ≤ 51) ∧
    (52 ≤ (52#6).toNat ∧ (61#6).toNat ≤ 61) ∧ (62#6).toNat = 62 ∧ (63#6).toNat = 63 := by decide

theorem witness_InvFollowsItsRanges :
    inv 0x41 = some 0 ∧ inv 0x5A = some 25 ∧ inv 0x61 = some 26 ∧ inv 0x7A = some 51 ∧ inv 0x30 = some 52 ∧
    inv 0x39 = some 61 ∧ inv 0x2B = some 62 ∧ inv 0x2F = some 63 ∧ inv 0x40 = none ∧ inv 0x5B = none := by decide

theorem witness_AlphaAndInvAreInverse : inv 0x2F = some 63 ∧ alpha 63 = 0x2F := by decide

theorem witness_LengthFunctions : 0 % 4 = 0 ∧ decEstimate 0 = 0 ∧ 8 % 4 = 0 ∧ decEstimate 8 = 6 := by decide

theorem witness_EncodeStartsTheEncoder :
    (ready.enc.phase ≠ .busy ∧ fits ready.cfg.outCapEnc (encTotal ready.enc.len) = true) ∧
    (let s := stateOf tightCfg (idleWith [1, 2, 3, 4]) (idleWith [])
     s.enc.phase ≠ .busy ∧ fits s.cfg.outCapEnc (encTotal s.enc.len) = false) := by decide

theorem witness_DecodeStartsTheDecoder :
    (failed.dec.phase ≠ .busy ∧ failed.dec.len % 4 ≠ 0) ∧
    (let s := stateOf { tightCfg with outCapDec := some 2 } (idleWith []) (idleWith [0x5A, 0x67, 0x3D, 0x3D])
     s.dec.phase ≠ .busy ∧ s.dec.len % 4 = 0 ∧ fits s.cfg.outCapDec (decEstimate s.dec.len) = false) ∧
    (ready.dec.phase ≠ .busy ∧ ready.dec.len % 4 = 0 ∧
      fits ready.cfg.outCapDec (decEstimate ready.dec.len) = true) := by decide

theorem witness_StartWhileBusyIsLost : busyStart.enc.phase = .busy ∧ busyStart.dec.phase = .busy := by decide

theorem witness_ReservedCommandIsIgnored :
    (0x04#8).extractLsb' 2 6 ≠ 0#6 ∧ (0xFF#8).extractLsb' 2 6 ≠ 0#6 := by decide

theorem witness_CommandFrame :
    (∃ t, exec (.nop 1) ready = .next t) ∧
    (∃ t, exec .encode ready = .next t ∧ t.enc.phase ≠ .error) ∧
    (∃ t, exec .decode ready = .next t ∧ t.dec.phase ≠ .error) ∧
    (∃ t, exec .decode failed = .next t ∧ t.dec.phase = .error) :=
  ⟨⟨_, rfl⟩, ⟨_, rfl, by decide⟩, ⟨_, rfl, by decide⟩, ⟨_, rfl, by decide⟩⟩

theorem witness_SymbolFormsItsIndex :
    (∃ g, (inLane 1 0x4A).decGroup = some g ∧ g.lane = 1) ∧ (∃ g, (inLane 2 0x4A).decGroup = some g ∧ g.lane = 2) ∧
    (∃ g, (inLane 3 0x4A).decGroup = some g ∧ g.lane = 3) ∧
    (∃ g, (inLane 4 0x4A).decGroup = some g ∧ g.lane = 4 ∧ isPad g.c3 = false) ∧
    (∃ g, (inLane 4 0x3D).decGroup = some g ∧ g.lane = 4 ∧ isPad g.c3 = true) :=
  ⟨⟨_, rfl, rfl⟩, ⟨_, rfl, rfl⟩, ⟨_, rfl, rfl⟩, ⟨_, rfl, rfl, rfl⟩, ⟨_, rfl, rfl, rfl⟩⟩

theorem witness_EveryInstructionIsCommandOrCharacter : symbolOf 0 = symbolOf 0 ∧ symbolOf 63 = .sym63 := by decide

theorem witness_PaddingFormsNoIndex :
    (∃ g, (inLane 3 0x3D).decGroup = some g ∧ g.lane = 3) ∧ (∃ g, (inLane 4 0x3D).decGroup = some g ∧ g.lane = 4) :=
  ⟨⟨_, rfl, rfl⟩, ⟨_, rfl, rfl⟩⟩

theorem witness_PaddingInTheFirstTwoLanesRaises :
    (∃ g, (inLane 1 0x3D).decGroup = some g ∧ g.lane = 1) ∧ (∃ g, (inLane 2 0x3D).decGroup = some g ∧ g.lane = 2) :=
  ⟨⟨_, rfl, rfl⟩, ⟨_, rfl, rfl⟩⟩

theorem witness_CharacterFrame :
    (∃ t, exec .symPad (inLane 3 0x3D) = .next t ∧
      ∀ g, (inLane 3 0x3D).decGroup = some g → g.lane ≠ 1 ∧ g.lane ≠ 2) ∧
    (∃ t, exec .symPad (inLane 1 0x3D) = .next t) ∧
    (∃ k t, symbolOf k ≠ .symPad ∧ exec (symbolOf k) (inLane 1 0x3D) = .next t) ∧
    (∃ t, exec (symbolOf 63) quiet = .next t ∧ quiet.decGroup = none) :=
  ⟨⟨_, rfl, fun _ h => Option.some.inj h ▸ by decide⟩, ⟨_, rfl⟩, ⟨63, _, by decide, rfl⟩, ⟨_, rfl, rfl⟩⟩

theorem witness_EncoderGroupStep :
    busyStart.enc.phase = .busy ∧ busyStart.enc.idx < busyStart.enc.len ∧
    fits busyStart.cfg.inCapEnc busyStart.enc.len = true ∧
    fits busyStart.cfg.outCapEnc (busyStart.enc.oidx + 4) = true := by decide

theorem witness_EncoderCompletion :
    busyEnd.enc.phase = .busy ∧ busyEnd.enc.len ≤ busyEnd.enc.idx ∧ busyEnd.Inv ∧
    (let evs : List Event := [.engine .enc, .host (.cmd 0x03), .host (.writeLen .enc 6), .host .reset]
     (∀ ev ∈ evs, ev ≠ .host (.cmd 0x01)) ∧
      ∃ t u, engineStep .enc busyEnd = .next t ∧ runEvents evs t = .next u) :=
  ⟨by decide, by decide, busyEnd_inv, by decide, _, _, rfl, rfl⟩

theorem witness_DecoderCompletion : busyEnd.dec.phase = .busy ∧ busyEnd.dec.len ≤ busyEnd.dec.idx := by decide

theorem witness_DecodedGroupByCases :
    inSet65 0x00 = false ∧ inSet65 0xFF = false ∧ isPad 0x3D = true ∧
    (inv 0x51 = some 16 ∧ inv 0x51 = some 16 ∧ isPad 0x3D = true ∧ inSet65 0x41 = true) ∧
    (inv 0x55 = some 20 ∧ inv 0x4A = some 9 ∧ isPad 0x3D = true) ∧ inv 0x2F = some 63 := by decide

theorem witness_DecoderGroupStep :
    (let s := decoding [0x51, 0x51, 0x3D, 0x00]
     s.dec.phase = .busy ∧ s.dec.idx < s.dec.len ∧ fits s.cfg.inCapDec (s.dec.idx + 4) = true ∧
      decGroupOf (inputCell .dec s 0) (inputCell .dec s 1) (inputCell .dec s 2) (inputCell .dec s 3) = none) ∧
    (let s := busyStart
     s.dec.phase = .busy ∧ s.dec.idx < s.dec.len ∧ fits s.cfg.inCapDec (s.dec.idx + 4) = true ∧
      decGroupOf (inputCell .dec s 0) (inputCell .dec s 1) (inputCell .dec s 2) (inputCell .dec s 3) =
        some [0x66, 0x6F] ∧ fits s.cfg.outCapDec (s.dec.oidx + 2) = true) := by decide

theorem witness_EngineStepsExactlyWhileBusy :
    (ready.enc.phase ≠ .busy ∧ finished.dec.phase ≠ .busy) ∧
    (busyStart.Inv ∧ busyStart.enc.phase = .busy ∧ busyStart.dec.phase = .busy) :=
  ⟨by decide, busyStart_inv, by decide, by decide⟩

theorem witness_EnginesAreIndependent :
    (∃ t, engineStep .enc busyStart = .next t) ∧ (∃ t, engineStep .dec busyStart = .next t) ∧
    (let s' := stateOf smallCfg busyStart.enc (errorWith [0x5A] .malformedLength)
     busyStart.cfg = s'.cfg ∧ busyStart.epoch = s'.epoch ∧ busyStart.engine .enc = s'.engine .enc) :=
  ⟨⟨_, rfl⟩, ⟨_, rfl⟩, by decide⟩

theorem witness_OnlyTheMessageIsRead :
    ((∀ i, i < busyStart.enc.len → (busyStart.enc.input.write 2 0xFF).read i = busyStart.enc.input.read i) ∧
      ∃ t, engineStep .enc busyStart = .next t) ∧
    (busyStart.dec.idx % 4 = 0 ∧ busyStart.dec.len % 4 = 0 ∧
      (∀ i, i < busyStart.dec.len → (busyStart.dec.input.write 4 0xFF).read i = busyStart.dec.input.read i) ∧
      ∃ t, engineStep .dec busyStart = .next t) :=
  ⟨⟨by decide, _, rfl⟩, by decide, by decide, by decide, _, rfl⟩

theorem witness_ErrorEntry :
    EngineId.dec ≠ EngineId.enc ∧ (raise .enc .allocationFailure ready).engine .dec = ready.engine .dec := by decide

theorem witness_EndedOperationPersists :
    (failed.dec.phase = .error ∧ Event.host (.cmd 0x01) ≠ .host .reset ∧
      Event.host (.cmd 0x01) ≠ .host (.cmd (startWord .dec)) ∧ ∃ t, runEvent (.host (.cmd 0x01)) failed = .next t) ∧
    (finished.enc.phase = .done ∧ Event.host (.writeLen .enc 0) ≠ .host .reset ∧
      Event.host (.writeLen .enc 0) ≠ .host (.cmd (startWord .enc)) ∧
      ∃ t, runEvent (.host (.writeLen .enc 0)) finished = .next t) :=
  ⟨⟨by decide, by decide, by decide, _, rfl⟩, by decide, by decide, by decide, _, rfl⟩

theorem witness_StatusWordsEverRead :
    quiet.Inv ∧ busyStart.Inv ∧ finished.Inv ∧ failed.Inv ∧ statusWord failed.enc = 0x0F#8 ∧
    statusWord failed.dec = 0x0B#8 :=
  ⟨quiet_inv, busyStart_inv, finished_inv, failed_inv, by decide, by decide⟩

theorem witness_ReadsReturnAndChangeNothing :
    (failed.Inv ∧ (failed.engine .dec).phase ≠ .done) ∧
    (finished.Inv ∧ (finished.engine .enc).phase = .done ∧ 0 < (finished.engine .enc).olen ∧
      3 < (finished.engine .enc).olen) ∧
    (fits (outCap finished.cfg .enc) (4 + 1) = true ∧
      ¬((finished.engine .enc).phase = .done ∧ 4 < (finished.engine .enc).olen)) ∧
    (fits (outCap busyEnd.cfg .dec) (0 + 1) = true ∧ ¬((busyEnd.engine .dec).phase = .done ∧
      0 < (busyEnd.engine .dec).olen)) :=
  ⟨⟨failed_inv, by decide⟩, ⟨finished_inv, by decide⟩, by decide, by decide⟩

theorem witness_WriteLenSetsTheLength :
    (fits (inCap ready.cfg .enc) 6 = true ∧ (ready.engine .enc).phase ≠ .busy) ∧
    (fits (inCap busyStart.cfg .enc) 6 = true ∧ (busyStart.engine .enc).phase = .busy) ∧
    fits (inCap ready.cfg .enc) 7 = false := by decide

theorem witness_WriteInSetsOneCell :
    (fits (inCap busyStart.cfg .dec) (7 + 1) = true ∧ (busyStart.engine .dec).phase = .busy) ∧
    (fits (inCap ready.cfg .dec) (7 + 1) = true ∧ (ready.engine .dec).phase ≠ .busy) := by decide

theorem witness_MessageIsStableWhileBusy :
    (busyStart.engine .enc).phase = .busy ∧ Event.engine .dec ≠ .host .reset ∧ Event.engine .dec ≠ .engine .enc ∧
    (∃ t, runEvent (.engine .dec) busyStart = .next t) ∧
    (Event.engine .enc ≠ .host .reset ∧ ∃ t, runEvent (.engine .enc) busyStart = .next t) :=
  ⟨by decide, by decide, by decide, ⟨_, rfl⟩, by decide, _, rfl⟩

theorem witness_RefusedExactlyWhenNoSuchAction :
    (facing [.host (.writeLen .enc 7)] ready).agenda = [.host (.writeLen .enc 7)] ∧
    (HostAction.writeLen .enc 7).wellFormed (facing [.host (.writeLen .enc 7)] ready).cfg = false ∧
    step (facing [.host (.writeLen .enc 7)] ready) = .refused (.lenBeyondCapacity .enc 7) := ⟨rfl, rfl, rfl⟩

theorem witness_StepRunsTheCommand :
    (facing [.host (.cmd 0x01), .engine .enc] ready).agenda = [.host (.cmd 0x01), .engine .enc] ∧
    decodeCommand 0x01 = .ok .encode ∧ decodeCommand (firstWord 8 0x03) = .ok .decode ∧
    decodeCommand (firstWord 16 0x0302) = .ok (.nop 1) := by decide

theorem witness_StepRunsTheFourCharacters :
    (let s := facing [.engine .dec] busyStart
     s.agenda = [.engine .dec] ∧ s.dec.phase = .busy ∧ s.dec.idx < s.dec.len ∧
      fits s.cfg.inCapDec (s.dec.idx + 4) = true ∧
      decodeCell (inputCell .dec s s.dec.idx) = .ok .sym25 ∧
      decodeCell (inputCell .dec s (s.dec.idx + 1)) = .ok .sym38 ∧
      decodeCell (inputCell .dec s (s.dec.idx + 2)) = .ok .sym60 ∧
      decodeCell (inputCell .dec s (s.dec.idx + 3)) = .ok .symPad) := by decide

theorem witness_StepRunsThePlacedCharacter :
    fits quiet.cfg.inCapDec 4 = true ∧ fits quiet.cfg.outCapDec 3 = true ∧ inv (firstWord 8 0x41) = some 0 ∧
    inv (firstWord 8 0x2F) = some 63 ∧ isPad (firstWord 8 0x3D) = true := by decide

theorem witness_StepTakesTheNextEvent :
    (facing [.engine .dec] ready).agenda = [.engine .dec] ∧
    (busyStart.agenda = [] ∧ busyStart.enc.phase = .busy) ∧
    ((decoding [0x41, 0x41, 0x41, 0x41]).agenda = [] ∧ (decoding [0x41, 0x41, 0x41, 0x41]).enc.phase ≠ .busy) ∧
    (quiet.agenda = [] ∧ quiet.quiescent) :=
  ⟨by decide, by decide, by decide, by decide, by decide, by decide⟩

theorem witness_EveryStepKeepsTheInvariant :
    (busyStart.Inv ∧ ∃ t, step busyStart = .next t) ∧ (busyEnd.Inv ∧ ∃ t, step busyEnd = .next t) ∧
    (failed.Inv ∧ ∃ t, step failed = .next t) :=
  ⟨⟨busyStart_inv, _, rfl⟩, ⟨busyEnd_inv, _, rfl⟩, failed_inv, _, rfl⟩

theorem witness_NoStepFaults : busyStart.Inv ∧ finished.Inv := ⟨busyStart_inv, finished_inv⟩

theorem witness_RegistersStayWithinLW :
    busyEnd.cfg.wellFormed = true ∧ busyEnd.Inv ∧ busyEnd.enc.FitsLW busyEnd.cfg ∧
    busyEnd.dec.FitsLW busyEnd.cfg ∧ ∃ t, step busyEnd = .next t :=
  ⟨by decide, busyEnd_inv, ⟨by decide, by decide, by decide, by decide⟩,
    ⟨by decide, by decide, by decide, by decide⟩, _, rfl⟩

theorem witness_EncodedTextLaws :
    (0x4D#8 ∈ encText [0x32] ∧ 0x4D#8 ≠ padCell) ∧ 0x3D#8 ∈ encText [0x32] := by decide

theorem witness_EncoderRunComputesEnc :
    ready.enc.phase ≠ .busy ∧ fits ready.cfg.inCapEnc ready.enc.len = true ∧
    fits ready.cfg.outCapEnc (encTotal ready.enc.len) = true ∧ (∃ s0, exec .encode ready = .next s0) ∧
    (0 ≤ ceilDiv ready.enc.len 3 ∧ 1 ≤ ceilDiv ready.enc.len 3) ∧ 3 < encTotal ready.enc.len :=
  ⟨by decide, by decide, by decide, ⟨_, rfl⟩, by decide, by decide⟩

theorem witness_DecoderRunComputesDec :
    (ready.dec.phase ≠ .busy ∧ fits ready.cfg.inCapDec ready.dec.len = true ∧
      (∃ s0, exec .decode ready = .next s0) ∧
      decText ready.cfg.outCapDec (message .dec ready) = .ok [0x66, 0x6F]) ∧
    (failed.dec.phase ≠ .busy ∧ fits failed.cfg.inCapDec failed.dec.len = true ∧
      (∃ s0, exec .decode failed = .next s0) ∧
      decText failed.cfg.outCapDec (message .dec failed) = .error .malformedLength) ∧
    (let s := stateOf smallCfg (idleWith []) (idleWith [0x51, 0x51, 0x3D, 0x00])
     s.dec.phase ≠ .busy ∧ fits s.cfg.inCapDec s.dec.len = true ∧ (∃ s0, exec .decode s = .next s0) ∧
      decText s.cfg.outCapDec (message .dec s) = .error .invalidCharacter) :=
  ⟨⟨by decide, by decide, ⟨_, rfl⟩, by decide⟩, ⟨by decide, by decide, ⟨_, rfl⟩, by decide⟩,
    by decide, by decide, ⟨_, rfl⟩, by decide⟩

theorem witness_OperationIgnoresTheInterleaving :
    (let evs : List Event := [.engine .dec, .host (.cmd 0x01), .engine .enc, .host (.writeLen .enc 1)]
     let later : List Event := [.host (.writeLen .enc 1), .host (.cmd 0x03), .engine .enc]
     (busyStart.engine .enc).phase = .busy ∧ (∀ ev ∈ evs, ev ≠ .host .reset) ∧
      evs.count (.engine .enc) = 1 ∧
      (∃ u v, runEngine .enc 1 busyStart = .next u ∧ (u.engine .enc).phase = .busy ∧
        engineStep .enc u = .next v ∧ (v.engine .enc).phase = .done) ∧
      (∀ ev ∈ later, ev ≠ .host .reset ∧ ev ≠ .host (.cmd (startWord .enc))) ∧
      (∃ t, runEvents evs busyStart = .next t) ∧
      ∃ w z, runEvents (evs ++ [.engine .enc]) busyStart = .next w ∧ runEvents later w = .next z) :=
  ⟨by decide, by decide, by decide, ⟨_, _, rfl, by decide, rfl, by decide⟩, by decide, ⟨_, rfl⟩, _, _, rfl, rfl⟩

/-- The turn that ends the operation in ERROR is among those the statement speaks of. -/
theorem witness_OperationIgnoresTheInterleaving_error :
    (let s := decoding [0x51, 0x51, 0x3D, 0x00]
     (s.engine .dec).phase = .busy ∧ [Event.engine .enc].count (.engine .dec) = 0 ∧
      (∃ t, runEvents [.engine .enc] s = .next t) ∧
      ∃ v, engineStep .dec s = .next v ∧ (v.engine .dec).phase = .error) :=
  ⟨by decide, by decide, ⟨_, rfl⟩, _, rfl, by decide⟩

theorem witness_CallsReturnEncAndDec :
    quiet.Inv ∧ quiet.enc.phase ≠ .busy ∧ quiet.dec.phase ≠ .busy ∧ fits quiet.cfg.inCapEnc 6 = true ∧
    fits quiet.cfg.inCapDec 8 = true :=
  ⟨quiet_inv, by decide, by decide, by decide, by decide⟩

theorem witness_DecodingInvertsEncoding :
    fits (some 0) (3 * ceilDiv ([] : List Byte).length 3) = true ∧
    fits (some 6) (3 * ceilDiv [0x54#8, 0x65#8, 0x73#8, 0x74#8].length 3) = true := by decide

theorem witness_RoundTripThroughBothEngines :
    quiet.Inv ∧ quiet.quiescent ∧ fits quiet.cfg.inCapEnc 4 = true ∧ fits quiet.cfg.outCapEnc (encTotal 4) = true ∧
    fits quiet.cfg.inCapDec (encTotal 4) = true ∧ fits quiet.cfg.outCapDec (3 * ceilDiv 4 3) = true :=
  ⟨quiet_inv, ⟨by decide, by decide⟩, by decide, by decide, by decide, by decide⟩

theorem witness_EmptyMessageCompletesAtOnce :
    (quiet.enc.phase ≠ .busy ∧ quiet.enc.len = 0) ∧ (quiet.dec.phase ≠ .busy ∧ quiet.dec.len = 0) := by decide

theorem witness_BusyEnginesFinish : busyStart.Inv ∧ busyStart.agenda = [] := ⟨busyStart_inv, rfl⟩

end Sys2Proof.Tests
end

section
/-! PROOFS. Every length and index register stays within `LW` bits (00_scope.md R5, R27, R28). The bound is a predicate
on states that each operation of the model keeps; only three writes need an argument about the capacities: `WriteLen`
and the two group steps. -/

namespace Sys2Proof.Machine

/-! ### Values that fit `LW` bits -/

@[simp] theorem fitsLW_zero (cfg : Config) : fitsLW cfg 0 = true := by
  cases h : cfg.lw <;> simp [fitsLW, h]

/-- R5's condition on `LW`: well-formed parameters leave room in the registers for four more than any value that one of
the capacities admits. -/
theorem fitsLW_of_fits_capacity {cfg : Config} {cap : Option Nat} {m n : Nat} (hwf : cfg.wellFormed = true)
    (hcap : cap ∈ [cfg.inCapEnc, cfg.outCapEnc, cfg.inCapDec, cfg.outCapDec]) (hn : fits cap n = true)
    (hm : m ≤ n + 4) : fitsLW cfg m = true := by
  cases hw : cfg.lw with
  | none => simp [fitsLW, hw]
  | some w =>
    simp only [Config.wellFormed, hw, List.all_eq_true] at hwf
    have hroom := hwf cap hcap
    cases cap with
    | none => simp at hroom
    | some c =>
      simp only [fits, decide_eq_true_eq] at hn hroom
      simp only [fitsLW, hw, decide_eq_true_eq]
      omega

theorem fitsLW_of_fits_inCap {cfg : Config} {e : EngineId} {m n : Nat} (hwf : cfg.wellFormed = true)
    (hn : fits (inCap cfg e) n = true) (hm : m ≤ n + 4) : fitsLW cfg m = true :=
  fitsLW_of_fits_capacity hwf (by cases e <;> simp [inCap]) hn hm

theorem fitsLW_of_fits_outCap {cfg : Config} {e : EngineId} {m n : Nat} (hwf : cfg.wellFormed = true)
    (hn : fits (outCap cfg e) n = true) (hm : m ≤ n + 4) : fitsLW cfg m = true :=
  fitsLW_of_fits_capacity hwf (by cases e <;> simp [outCap]) hn hm

/-- Free indices are drawn within `LW` bits, so only the two lengths count. -/
theorem freeIndices_fitsLW {cfg : Config} {x : Engine} (e : EngineId) (hlen : fitsLW cfg x.len = true)
    (holen : fitsLW cfg x.olen = true) : (freeIndices cfg e x).FitsLW cfg :=
  ⟨hlen, holen, clipLW_fits _ _, clipLW_fits _ _⟩

theorem engineResetWith_fitsLW (cfg : Config) (e : EngineId) (draws : Nat) :
    (Engine.resetWith cfg e draws).FitsLW cfg :=
  ⟨fitsLW_zero cfg, fitsLW_zero cfg, clipLW_fits _ _, clipLW_fits _ _⟩

/-! ### What a group step of the decoder can do -/

/-- `t` is a state inside the decoder's group step that began in `s`: a lane has raised, or the lanes have changed
nothing but the group registers. -/
def InDecGroupStep (s t : State) : Prop :=
  t = raise .dec .invalidCharacter s ∨ ∃ g, t = { s with decGroup := some g }

theorem decFetch_inDecGroupStep (s : State) : InDecGroupStep s (decFetch s) := .inr ⟨_, rfl⟩

/-- A lane stays inside the group step: after a raise it does nothing (60_exceptions.md R227). -/
theorem runLane_inDecGroupStep {s u t : State} {c : Byte} (hu : InDecGroupStep s u) (h : runLane c u = .next t) :
    InDecGroupStep s t := by
  obtain rfl | ⟨g, rfl⟩ := hu
  · rw [runLane_none (by simp)] at h
    exact .inl (Host.Outcome.next.inj h).symm
  · obtain ⟨hpad, -⟩ | ⟨k, hk, -⟩ | hbad := cell_cases c
    · rw [runLane_pad rfl hpad] at h
      by_cases hl : g.lane = 1 ∨ g.lane = 2
      · rw [takePad_early rfl hl] at h
        exact .inl (Host.Outcome.next.inj h).symm
      · rw [takePad_late rfl hl] at h
        exact .inr ⟨_, (Host.Outcome.next.inj h).symm⟩
    · rw [runLane_symbol rfl hk] at h
      exact .inr ⟨_, (Host.Outcome.next.inj h).symm⟩
    · rw [runLane_invalid rfl hbad] at h
      exact .inl (Host.Outcome.next.inj h).symm

/-- Everything the decoder's group step can do when it answers a next state: raise InvalidCharacter, or store the bytes
of a group and advance. -/
theorem decGroupStep_next {s t : State} (h : decGroupStep s = .next t) :
    fits s.cfg.inCapDec (s.dec.idx + 4) = true ∧
    (t = raise .dec .invalidCharacter s ∨
     ∃ g, fits s.cfg.outCapDec (s.dec.oidx + (groupBytes g).length) = true ∧
      t = { s with
        decGroup := none,
        dec := { s.dec with
          idx := s.dec.idx + 4, oidx := s.dec.oidx + (groupBytes g).length,
          output := s.dec.output.writeCells s.dec.oidx (groupBytes g) } }) := by
  unfold decGroupStep at h
  split at h
  · rename_i hin
    refine ⟨hin, ?_⟩
    simp only [andThen_eq_next] at h
    obtain ⟨u, ⟨u3, ⟨u2, ⟨u1, h1, h2⟩, h3⟩, h4⟩, hstore⟩ := h
    have hlanes : InDecGroupStep s u :=
      runLane_inDecGroupStep (runLane_inDecGroupStep (runLane_inDecGroupStep
        (runLane_inDecGroupStep (decFetch_inDecGroupStep s) h1) h2) h3) h4
    obtain rfl | ⟨g, rfl⟩ := hlanes
    · obtain ⟨-, rfl⟩ | ⟨g, hg, -⟩ := decStore_next hstore
      · exact .inl rfl
      · simp at hg
    · obtain ⟨hg, -⟩ | ⟨g', -, hout, rfl⟩ := decStore_next hstore
      · cases hg
      · exact .inr ⟨g', hout, rfl⟩
  · cases h

/-! ### The bound, and the operations that keep it -/

/-- `s` has the parameters `cfg`, and every length and index register of both engines fits `LW` bits. -/
structure State.WithinLW (s : State) (cfg : Config) : Prop where
  cfgIs : s.cfg = cfg
  engines : ∀ e, (s.engine e).FitsLW cfg

theorem withinLW_iff {s : State} {cfg : Config} :
    s.WithinLW cfg ↔ s.cfg = cfg ∧ s.enc.FitsLW s.cfg ∧ s.dec.FitsLW s.cfg := by
  constructor
  · rintro ⟨rfl, hf⟩
    exact ⟨rfl, hf .enc, hf .dec⟩
  · rintro ⟨rfl, henc, hdec⟩
    exact ⟨rfl, fun e => by cases e <;> assumption⟩

section
variable {cfg : Config} {s t : State}

/-- The bound speaks of the parameters and the engines only. -/
theorem State.WithinLW.of_same_engines (h : s.WithinLW cfg) (hcfg : t.cfg = s.cfg)
    (hengine : ∀ e, t.engine e = s.engine e) : t.WithinLW cfg :=
  ⟨hcfg.trans h.cfgIs, fun e => hengine e ▸ h.engines e⟩

theorem setEngine_withinLW {e : EngineId} {x : Engine} (h : s.WithinLW cfg) (hx : x.FitsLW cfg) :
    (s.setEngine e x).WithinLW cfg := by
  refine ⟨by simp [h.cfgIs], fun e' => ?_⟩
  by_cases he : e' = e
  · subst he
    simpa using hx
  · rw [setEngine_engine_other s x he]
    exact h.engines e'

theorem clearGroup_withinLW (e : EngineId) (h : s.WithinLW cfg) : (clearGroup e s).WithinLW cfg :=
  h.of_same_engines (by simp) (by simp)

theorem raise_withinLW (e : EngineId) (x : Condition) (h : s.WithinLW cfg) : (raise e x s).WithinLW cfg := by
  obtain ⟨rfl, hf⟩ := h
  exact clearGroup_withinLW e
    (setEngine_withinLW ⟨rfl, hf⟩ (freeIndices_fitsLW e (hf e).len (fitsLW_zero s.cfg)))

/-- The completion step copies OIDX, which fits, into OLEN. -/
theorem complete_withinLW (e : EngineId) (h : s.WithinLW cfg) : (complete e s).WithinLW cfg := by
  obtain ⟨rfl, hf⟩ := h
  exact setEngine_withinLW ⟨rfl, hf⟩ (freeIndices_fitsLW e (hf e).len (hf e).oidx)

theorem acceptStart_withinLW (e : EngineId) (h : s.WithinLW cfg) : (acceptStart e s).WithinLW cfg :=
  setEngine_withinLW h { h.engines e with olen := fitsLW_zero cfg }

theorem beginOperation_withinLW (e : EngineId) (h : s.WithinLW cfg) : (beginOperation e s).WithinLW cfg :=
  setEngine_withinLW h { h.engines e with idx := fitsLW_zero cfg, oidx := fitsLW_zero cfg }

theorem start_withinLW (e : EngineId) (problem : Option Condition) (h : s.WithinLW cfg) :
    (start e problem s).WithinLW cfg := by
  cases problem with
  | none => exact beginOperation_withinLW e (acceptStart_withinLW e h)
  | some x => exact raise_withinLW e x (acceptStart_withinLW e h)

theorem resetBlock_withinLW (h : s.WithinLW cfg) : (resetBlock s).WithinLW cfg := by
  obtain ⟨rfl, -⟩ := h
  exact withinLW_iff.mpr ⟨rfl, engineResetWith_fitsLW _ _ _, engineResetWith_fitsLW _ _ _⟩

/-! ### The host's actions -/

theorem execEncode_withinLW (h : s.WithinLW cfg) (ht : execEncode s = .next t) : t.WithinLW cfg := by
  unfold execEncode at ht
  split at ht <;> obtain rfl := Host.Outcome.next.inj ht
  · exact h
  · exact start_withinLW .enc _ h

theorem execDecode_withinLW (h : s.WithinLW cfg) (ht : execDecode s = .next t) : t.WithinLW cfg := by
  unfold execDecode at ht
  split at ht <;> obtain rfl := Host.Outcome.next.inj ht
  · exact h
  · exact start_withinLW .dec _ h

theorem hostCmd_withinLW {w : Byte} (h : s.WithinLW cfg) (ht : hostCmd w s = .next t) : t.WithinLW cfg := by
  obtain ⟨-, hw⟩ | ⟨-, hw⟩ | ⟨-, hw⟩ | ⟨-, hw⟩ := hostCmd_cases w s <;> rw [hw] at ht
  · exact execEncode_withinLW h ht
  · exact execDecode_withinLW h ht
  · exact Host.Outcome.next.inj ht ▸ h
  · exact Host.Outcome.next.inj ht ▸ h

/-- A length that `WriteLen` accepts is at most the input capacity. -/
theorem hostWriteLen_withinLW {e : EngineId} {v : Nat} (hwf : cfg.wellFormed = true) (h : s.WithinLW cfg)
    (ht : hostWriteLen e v s = .next t) : t.WithinLW cfg := by
  obtain ⟨hv, ⟨-, rfl⟩ | ⟨-, rfl⟩⟩ := hostWriteLen_next ht
  · exact h
  · rw [h.cfgIs] at hv
    exact setEngine_withinLW h { h.engines e with len := fitsLW_of_fits_inCap hwf hv (Nat.le_add_right v 4) }

theorem hostWriteIn_withinLW {e : EngineId} {i : Nat} {c : Byte} (h : s.WithinLW cfg)
    (ht : hostWriteIn e i c s = .next t) : t.WithinLW cfg := by
  obtain ⟨-, ⟨-, rfl⟩ | ⟨-, rfl⟩⟩ := hostWriteIn_next ht
  · exact h
  · exact setEngine_withinLW h { h.engines e with }

theorem respond_withinLW (r : Response) (h : s.WithinLW cfg) : (respond r s).WithinLW cfg :=
  h.of_same_engines rfl fun e => by cases e <;> rfl

theorem hostReadOut_withinLW {e : EngineId} {i : Nat} (h : s.WithinLW cfg) (ht : hostReadOut e i s = .next t) :
    t.WithinLW cfg := by
  obtain ⟨-, c, n, rfl, -⟩ := hostReadOut_next ht
  exact h.of_same_engines rfl fun e => by cases e <;> rfl

theorem hostAct_withinLW {a : HostAction} (hwf : cfg.wellFormed = true) (h : s.WithinLW cfg)
    (ht : hostAct a s = .next t) : t.WithinLW cfg := by
  cases a with
  | cmd w => exact hostCmd_withinLW h ht
  | writeLen e v => exact hostWriteLen_withinLW hwf h ht
  | writeIn e i c => exact hostWriteIn_withinLW h ht
  | readOut e i => exact hostReadOut_withinLW h ht
  | readStatus e | readLen e | readOlen e => exact Host.Outcome.next.inj ht ▸ respond_withinLW _ h
  | writeStatus e w | writeOlen e v => exact Host.Outcome.next.inj ht ▸ h
  | reset => exact Host.Outcome.next.inj ht ▸ resetBlock_withinLW h

/-! ### The engines' turns -/

/-- The group step starts below LEN and inside the input buffer, so IDX ends at most 2 beyond the capacity; OIDX ends
inside the output buffer. -/
theorem encGroupStep_withinLW (hwf : cfg.wellFormed = true) (h : s.WithinLW cfg) (hlt : s.enc.idx < s.enc.len)
    (ht : encGroupStep s = .next t) : t.WithinLW cfg := by
  obtain ⟨hin, hout, rfl⟩ := encGroupStep_next ht
  obtain ⟨rfl, henc, hdec⟩ := withinLW_iff.mp h
  have hidx : fitsLW s.cfg (s.enc.idx + 3) = true := fitsLW_of_fits_inCap (e := .enc) hwf hin (by omega)
  have hoidx : fitsLW s.cfg (s.enc.oidx + 4) = true :=
    fitsLW_of_fits_outCap (e := .enc) hwf hout (Nat.le_add_right _ 4)
  exact withinLW_iff.mpr ⟨rfl, { henc with idx := hidx, oidx := hoidx }, hdec⟩

theorem decGroupStep_withinLW (hwf : cfg.wellFormed = true) (h : s.WithinLW cfg) (ht : decGroupStep s = .next t) :
    t.WithinLW cfg := by
  obtain ⟨hin, rfl | ⟨g, hout, rfl⟩⟩ := decGroupStep_next ht
  · exact raise_withinLW .dec .invalidCharacter h
  · obtain ⟨rfl, henc, hdec⟩ := withinLW_iff.mp h
    have hidx : fitsLW s.cfg (s.dec.idx + 4) = true :=
      fitsLW_of_fits_inCap (e := .dec) hwf hin (Nat.le_add_right _ 4)
    have hoidx : fitsLW s.cfg (s.dec.oidx + (groupBytes g).length) = true :=
      fitsLW_of_fits_outCap (e := .dec) hwf hout (Nat.le_add_right _ 4)
    exact withinLW_iff.mpr ⟨rfl, henc, { hdec with idx := hidx, oidx := hoidx }⟩

theorem encStep_withinLW (hwf : cfg.wellFormed = true) (h : s.WithinLW cfg) (ht : encStep s = .next t) :
    t.WithinLW cfg := by
  obtain ⟨-, rfl⟩ | ⟨-, -, rfl⟩ | ⟨-, hlt, hgroup⟩ := encStep_next ht
  · exact h
  · exact complete_withinLW .enc h
  · exact encGroupStep_withinLW hwf h hlt hgroup

theorem decStep_withinLW (hwf : cfg.wellFormed = true) (h : s.WithinLW cfg) (ht : decStep s = .next t) :
    t.WithinLW cfg := by
  obtain ⟨-, rfl⟩ | ⟨-, -, rfl⟩ | ⟨-, -, hgroup⟩ := decStep_next ht
  · exact h
  · exact complete_withinLW .dec h
  · exact decGroupStep_withinLW hwf h hgroup

/-! ### The step -/

theorem runEvent_withinLW {ev : Event} (hwf : cfg.wellFormed = true) (h : s.WithinLW cfg)
    (ht : runEvent ev s = .next t) : t.WithinLW cfg := by
  match ev with
  | .host a => exact hostAct_withinLW hwf h ht
  | .engine .enc => exact encStep_withinLW hwf h ht
  | .engine .dec => exact decStep_withinLW hwf h ht

theorem runIdle_withinLW (hwf : cfg.wellFormed = true) (h : s.WithinLW cfg) (ht : runIdle s = .next t) :
    t.WithinLW cfg := by
  unfold runIdle at ht
  split at ht
  · exact encStep_withinLW hwf h ht
  · exact decStep_withinLW hwf h ht

theorem step_withinLW (hwf : cfg.wellFormed = true) (h : s.WithinLW cfg) (ht : step s = .next t) :
    t.WithinLW cfg := by
  unfold step at ht
  split at ht
  · rename_i ev rest _
    have hrest : State.WithinLW { s with agenda := rest } cfg :=
      h.of_same_engines rfl fun e => by cases e <;> rfl
    exact runEvent_withinLW hwf hrest ht
  · exact runIdle_withinLW hwf h ht

end

/-- Settles O49. The invariant's hypothesis is not needed: the capacity tests of the steps themselves bound what they
write. -/
theorem registersStayWithinLW : Obligations.RegistersStayWithinLW := by
  intro s t hwf _ henc hdec ht
  exact withinLW_iff.mp (step_withinLW hwf (withinLW_iff.mpr ⟨rfl, henc, hdec⟩) ht)

end Sys2Proof.Machine
end

section
/-! PROOFS. The invariant of 10_state.md R36: it holds at reset, and every step keeps it. Per engine it is one
predicate, `EngineSound`; each operation writes one engine, so each needs only that the engine it leaves behind is
sound. -/

namespace Sys2Proof.Machine

/-! ### The invariant, engine by engine -/

/-- 10_state.md R36 (c) for either engine. -/
def BusyInv (cfg : Config) : EngineId → Engine → Prop
  | .enc => EncBusy cfg
  | .dec => DecBusy cfg

/-- The values of `ERR.e` (10_state.md R22): the encoder raises AllocationFailure only. -/
def ErrAllowed : EngineId → Option Condition → Prop
  | .enc, err => err = none ∨ err = some .allocationFailure
  | .dec, _ => True

/-- What `State.Inv` says of engine `e`. -/
structure EngineSound (cfg : Config) (e : EngineId) (x : Engine) : Prop where
  inv : EngineInv cfg e x
  errAllowed : ErrAllowed e x.err
  busy : x.phase = .busy → BusyInv cfg e x

theorem errAllowed_none (e : EngineId) : ErrAllowed e none := by
  cases e with
  | enc => exact .inl rfl
  | dec => trivial

theorem inv_iff {s : State} :
    s.Inv ↔ (∀ e, EngineSound s.cfg e (s.engine e)) ∧ s.encGroup = none ∧ s.decGroup = none := by
  constructor
  · intro h
    refine ⟨fun e => ?_, h.encGroup, h.decGroup⟩
    cases e with
    | enc => exact ⟨h.enc, h.encErr, h.encBusy⟩
    | dec => exact ⟨h.dec, trivial, h.decBusy⟩
  · rintro ⟨hsound, hencGroup, hdecGroup⟩
    obtain ⟨henc, hencErr, hencBusy⟩ := hsound .enc
    obtain ⟨hdec, -, hdecBusy⟩ := hsound .dec
    exact ⟨henc, hdec, hencErr, hencBusy, hdecBusy, hencGroup, hdecGroup⟩

theorem State.Inv.sound {s : State} (h : s.Inv) (e : EngineId) : EngineSound s.cfg e (s.engine e) :=
  (inv_iff.mp h).1 e

theorem setEngine_inv {s : State} {e : EngineId} {x : Engine} (h : s.Inv) (hx : EngineSound s.cfg e x) :
    (s.setEngine e x).Inv := by
  refine inv_iff.mpr ⟨fun e' => ?_, by simp [h.encGroup], by simp [h.decGroup]⟩
  rw [setEngine_cfg]
  by_cases he : e' = e
  · subst he
    simpa using hx
  · rw [setEngine_engine_other s x he]
    exact h.sound e'

theorem clearGroup_inv {s : State} (e : EngineId) (h : s.Inv) : (clearGroup e s).Inv := by
  cases e with
  | enc => exact { h with encGroup := rfl }
  | dec => exact { h with decGroup := rfl }

/-- The engine that an accepted START leaves behind (41_encoder.md R143, 42_decoder.md R172). -/
def Engine.begun (x : Engine) : Engine :=
  { x with err := none, olen := 0, idx := 0, oidx := 0, phase := .busy }

/-- The engine that a group step leaves behind which has read `n` cells and stored `bs` (41_encoder.md R149, R150,
42_decoder.md R180). -/
def Engine.stored (x : Engine) (n : Nat) (bs : List Byte) : Engine :=
  { x with idx := x.idx + n, oidx := x.oidx + bs.length, output := x.output.writeCells x.oidx bs }

/-! ### Engines that are sound -/

theorem engineResetWith_sound (cfg : Config) (e : EngineId) (draws : Nat) :
    EngineSound cfg e (Engine.resetWith cfg e draws) where
  inv :=
    { inputWf := nil_wf
      outputWf := nil_wf
      inputInside := by simp
      outputInside := by simp
      errIff := by simp
      noResult := by simp
      lenInside := by simp
      resultInside := by simp
      resultWritten := by simp }
  errAllowed := errAllowed_none e
  busy := by simp

section
variable {cfg : Config} {e : EngineId} {x : Engine}

theorem EngineSound.err_eq_none (h : EngineSound cfg e x) (hb : x.phase = .busy) : x.err = none := by
  by_contra herr
  have := h.inv.errIff.mp herr
  simp [hb] at this

/-- The engine that the error entry leaves behind (60_exceptions.md R227). -/
theorem EngineSound.raise (h : EngineSound cfg e x) {c : Condition} (hc : ErrAllowed e (some c)) :
    EngineSound cfg e
      (freeIndices cfg e { x with phase := .error, err := some c, olen := 0, output := [] }) where
  inv :=
    { h.inv with
      outputWf := nil_wf
      outputInside := by simp
      errIff := by simp
      noResult := by simp
      resultInside := by simp
      resultWritten := by simp }
  errAllowed := hc
  busy := by simp

theorem EngineSound.begun (h : EngineSound cfg e x) (hbusy : BusyInv cfg e x.begun) :
    EngineSound cfg e x.begun where
  inv :=
    { h.inv with
      errIff := by simp [Engine.begun]
      noResult _ := rfl
      resultInside := nofun
      resultWritten := nofun }
  errAllowed := errAllowed_none e
  busy _ := hbusy

/-- The engine that the completion step leaves behind: its result lies inside the output buffer and is written. -/
theorem EngineSound.complete (h : EngineSound cfg e x) (hb : x.phase = .busy)
    (hin : fits (outCap cfg e) x.oidx = true) (hwritten : ∀ j < x.oidx, (x.output.read j).isSome = true) :
    EngineSound cfg e (freeIndices cfg e { x with olen := x.oidx, phase := .done }) where
  inv :=
    { h.inv with
      errIff := by simp [h.err_eq_none hb]
      noResult := by simp
      resultInside := fun _ => hin
      resultWritten := fun _ => hwritten }
  errAllowed := h.errAllowed
  busy := by simp

theorem EngineSound.writeLen (h : EngineSound cfg e x) (hnb : x.phase ≠ .busy) {v : Nat}
    (hv : fits (inCap cfg e) v = true) : EngineSound cfg e { x with len := v } where
  inv := { h.inv with lenInside := hv }
  errAllowed := h.errAllowed
  busy hb := absurd hb hnb

theorem EngineSound.writeIn (h : EngineSound cfg e x) (hnb : x.phase ≠ .busy) {i : Nat} (c : Byte)
    (hi : fits (inCap cfg e) (i + 1) = true) : EngineSound cfg e { x with input := x.input.write i c } where
  inv :=
    { h.inv with
      inputWf := write_wf i c h.inv.inputWf
      inputInside := fun p hp => by
        obtain rfl | hp := mem_write hp
        · exact hi
        · exact h.inv.inputInside p hp }
  errAllowed := h.errAllowed
  busy hb := absurd hb hnb

/-- A group step keeps the engine sound when the cells it stores lie inside the output buffer. -/
theorem EngineSound.stored (h : EngineSound cfg e x) (hb : x.phase = .busy) {n : Nat} {bs : List Byte}
    (hbusy : BusyInv cfg e (x.stored n bs)) (hout : fits (outCap cfg e) (x.oidx + bs.length) = true) :
    EngineSound cfg e (x.stored n bs) where
  inv :=
    { h.inv with
      outputWf := writeCells_wf x.oidx bs h.inv.outputWf
      outputInside := fun p hp => by
        obtain hp | ⟨-, hlt⟩ := mem_writeCells hp
        · exact h.inv.outputInside p hp
        · exact fits_mono hout hlt
      resultInside := by simp [Engine.stored, hb]
      resultWritten := by simp [Engine.stored, hb] }
  errAllowed := h.errAllowed
  busy _ := hbusy

end

/-! ### BUSY engines -/

/-- Writing on from the end of the written cells leaves no gap. -/
theorem read_writeCells_isSome {m : Memory} {a : Nat} (bs : List Byte)
    (h : ∀ j < a, (m.read j).isSome = true) : ∀ j < a + bs.length, ((m.writeCells a bs).read j).isSome = true := by
  intro j hj
  by_cases hja : j < a
  · rw [read_writeCells_outside m a bs (.inl hja)]
    exact h j hja
  · obtain ⟨k, rfl⟩ := Nat.exists_eq_add_of_le (Nat.le_of_not_lt hja)
    rw [read_writeCells_inside m a bs (by omega)]
    rfl

/-- At its completion step the encoder has stored exactly `T(LEN)` cells (41_encoder.md R151). -/
theorem EncBusy.oidx_eq_encTotal {cfg : Config} {x : Engine} (h : EncBusy cfg x) (hend : x.len ≤ x.idx) :
    x.oidx = encTotal x.len := by
  obtain ⟨haligned, hbound, hoidx, -, -⟩ := h
  simp only [encTotal, ceilDiv]
  omega

/-- The decoder never stores more than the estimate `E(LEN)` that its START has tested (42_decoder.md R171). -/
theorem DecBusy.oidx_le_decEstimate {cfg : Config} {x : Engine} (h : DecBusy cfg x) :
    x.oidx ≤ decEstimate x.len := by
  have hidx := h.idxBound
  have hoidx := h.oidxBound
  simp only [decEstimate, ceilDiv]
  omega

theorem groupBytes_length_le (g : DecGroup) : (groupBytes g).length ≤ 3 := by
  unfold groupBytes
  split <;> simp

theorem encBusy_begun {cfg : Config} {x : Engine} (hroom : fits cfg.outCapEnc (encTotal x.len) = true) :
    EncBusy cfg x.begun where
  idxAligned := rfl
  idxBound := by simp [Engine.begun]
  oidxIs := by simp [Engine.begun]
  room := hroom
  written := nofun

theorem decBusy_begun {cfg : Config} {x : Engine} (haligned : x.len % 4 = 0)
    (hroom : fits cfg.outCapDec (decEstimate x.len) = true) : DecBusy cfg x.begun where
  idxAligned := rfl
  lenAligned := haligned
  idxBound := Nat.zero_le x.len
  oidxBound := Nat.zero_le _
  room := hroom
  written := nofun

/-- One encoder group further: 3 cells read, 4 cells stored. -/
theorem EncBusy.stored {cfg : Config} {x : Engine} (h : EncBusy cfg x) (hlt : x.idx < x.len) {bs : List Byte}
    (hbs : bs.length = 4) : EncBusy cfg (x.stored 3 bs) where
  idxAligned := by simpa [Engine.stored] using h.idxAligned
  idxBound := Nat.add_lt_add_right hlt 3
  oidxIs := by
    have := h.oidxIs
    simp only [Engine.stored]
    omega
  room := h.room
  written := read_writeCells_isSome bs h.written

/-- One decoder group further: 4 cells read, at most 3 bytes stored. -/
theorem DecBusy.stored {cfg : Config} {x : Engine} (h : DecBusy cfg x) (hlt : x.idx < x.len) {bs : List Byte}
    (hbs : bs.length ≤ 3) : DecBusy cfg (x.stored 4 bs) where
  idxAligned := by simpa [Engine.stored] using h.idxAligned
  lenAligned := h.lenAligned
  idxBound := by
    have hidx := h.idxAligned
    have hlen := h.lenAligned
    simp only [Engine.stored]
    omega
  oidxBound := by
    have := h.oidxBound
    simp only [Engine.stored]
    omega
  room := h.room
  written := read_writeCells_isSome bs h.written

/-! ### The operations keep the invariant -/

section
variable {s t : State}

theorem raise_inv {e : EngineId} {c : Condition} (h : s.Inv) (hc : ErrAllowed e (some c)) : (raise e c s).Inv :=
  clearGroup_inv e (setEngine_inv h ((h.sound e).raise hc))

theorem complete_inv {e : EngineId} (h : s.Inv) (hb : (s.engine e).phase = .busy)
    (hin : fits (outCap s.cfg e) (s.engine e).oidx = true)
    (hwritten : ∀ j < (s.engine e).oidx, ((s.engine e).output.read j).isSome = true) : (complete e s).Inv :=
  setEngine_inv h ((h.sound e).complete hb hin hwritten)

/-- An accepted START sets the engine's registers all at once: between `acceptStart` and `beginOperation` the invariant
does not hold. -/
theorem start_none_eq (e : EngineId) (s : State) : start e none s = s.setEngine e (s.engine e).begun := by
  cases e <;> rfl

/-- The error entry overwrites what `acceptStart` has cleared. -/
theorem start_some_eq (e : EngineId) (c : Condition) (s : State) : start e (some c) s = raise e c s := by
  cases e <;> rfl

theorem encStart_inv (h : s.Inv) : (start .enc (encStartError s.cfg s.enc.len) s).Inv := by
  obtain ⟨hnone, hroom⟩ | ⟨hfail, -⟩ := encStartError_cases s.cfg s.enc.len
  · rw [hnone, start_none_eq]
    exact setEngine_inv h ((h.sound .enc).begun (encBusy_begun hroom))
  · rw [hfail, start_some_eq]
    exact raise_inv h (.inr rfl)

theorem decStart_inv (h : s.Inv) : (start .dec (decStartError s.cfg s.dec.len) s).Inv := by
  obtain ⟨hfail, -⟩ | ⟨hnone, haligned, hroom⟩ | ⟨hfail, -⟩ := decStartError_cases s.cfg s.dec.len
  · rw [hfail, start_some_eq]
    exact raise_inv h trivial
  · rw [hnone, start_none_eq]
    exact setEngine_inv h ((h.sound .dec).begun (decBusy_begun haligned hroom))
  · rw [hfail, start_some_eq]
    exact raise_inv h trivial

theorem resetBlock_inv (s : State) : (resetBlock s).Inv := by
  refine inv_iff.mpr ⟨fun e => ?_, rfl, rfl⟩
  cases e <;> exact engineResetWith_sound _ _ _

/-! ### The host's actions keep the invariant -/

theorem execEncode_inv (h : s.Inv) (ht : execEncode s = .next t) : t.Inv := by
  unfold execEncode at ht
  split at ht <;> obtain rfl := Host.Outcome.next.inj ht
  · exact h
  · exact encStart_inv h

theorem execDecode_inv (h : s.Inv) (ht : execDecode s = .next t) : t.Inv := by
  unfold execDecode at ht
  split at ht <;> obtain rfl := Host.Outcome.next.inj ht
  · exact h
  · exact decStart_inv h

theorem hostCmd_inv {w : Byte} (h : s.Inv) (ht : hostCmd w s = .next t) : t.Inv := by
  obtain ⟨-, hw⟩ | ⟨-, hw⟩ | ⟨-, hw⟩ | ⟨-, hw⟩ := hostCmd_cases w s <;> rw [hw] at ht
  · exact execEncode_inv h ht
  · exact execDecode_inv h ht
  · exact Host.Outcome.next.inj ht ▸ h
  · exact Host.Outcome.next.inj ht ▸ h

theorem hostWriteLen_inv {e : EngineId} {v : Nat} (h : s.Inv) (ht : hostWriteLen e v s = .next t) : t.Inv := by
  obtain ⟨hv, ⟨-, rfl⟩ | ⟨hnb, rfl⟩⟩ := hostWriteLen_next ht
  · exact h
  · exact setEngine_inv h ((h.sound e).writeLen hnb hv)

theorem hostWriteIn_inv {e : EngineId} {i : Nat} {c : Byte} (h : s.Inv) (ht : hostWriteIn e i c s = .next t) :
    t.Inv := by
  obtain ⟨hi, ⟨-, rfl⟩ | ⟨hnb, rfl⟩⟩ := hostWriteIn_next ht
  · exact h
  · exact setEngine_inv h ((h.sound e).writeIn hnb c hi)

theorem respond_inv (r : Response) (h : s.Inv) : (respond r s).Inv := { h with }

theorem hostReadOut_inv {e : EngineId} {i : Nat} (h : s.Inv) (ht : hostReadOut e i s = .next t) : t.Inv := by
  obtain ⟨-, c, n, rfl, -⟩ := hostReadOut_next ht
  exact { h with }

theorem hostAct_inv {a : HostAction} (h : s.Inv) (ht : hostAct a s = .next t) : t.Inv := by
  cases a with
  | cmd w => exact hostCmd_inv h ht
  | writeLen e v => exact hostWriteLen_inv h ht
  | writeIn e i c => exact hostWriteIn_inv h ht
  | readOut e i => exact hostReadOut_inv h ht
  | readStatus e | readLen e | readOlen e => exact Host.Outcome.next.inj ht ▸ respond_inv _ h
  | writeStatus e w | writeOlen e v => exact Host.Outcome.next.inj ht ▸ h
  | reset => exact Host.Outcome.next.inj ht ▸ resetBlock_inv s

/-! ### The engines' turns keep the invariant -/

theorem encGroupStep_inv (h : s.Inv) (hb : s.enc.phase = .busy) (hlt : s.enc.idx < s.enc.len)
    (ht : encGroupStep s = .next t) : t.Inv := by
  obtain ⟨-, hout, rfl⟩ := encGroupStep_next ht
  have hbusy := (h.encBusy hb).stored hlt (bs := encCells s.enc.len s.enc.oidx
    (encGroupOf (encInput s s.enc.idx) (encInput s (s.enc.idx + 1)) (encInput s (s.enc.idx + 2)))) rfl
  exact clearGroup_inv .enc (setEngine_inv h ((h.sound .enc).stored hb hbusy hout))

theorem decGroupStep_inv (h : s.Inv) (hb : s.dec.phase = .busy) (hlt : s.dec.idx < s.dec.len)
    (ht : decGroupStep s = .next t) : t.Inv := by
  obtain ⟨-, rfl | ⟨g, hout, rfl⟩⟩ := decGroupStep_next ht
  · exact raise_inv h trivial
  · have hbusy := (h.decBusy hb).stored hlt (groupBytes_length_le g)
    exact clearGroup_inv .dec (setEngine_inv h ((h.sound .dec).stored hb hbusy hout))

theorem encStep_inv (h : s.Inv) (ht : encStep s = .next t) : t.Inv := by
  obtain ⟨-, rfl⟩ | ⟨hb, hend, rfl⟩ | ⟨hb, hlt, hgroup⟩ := encStep_next ht
  · exact h
  · have hbusy := h.encBusy hb
    have hin : fits s.cfg.outCapEnc s.enc.oidx = true := hbusy.oidx_eq_encTotal hend ▸ hbusy.room
    exact complete_inv h hb hin hbusy.written
  · exact encGroupStep_inv h hb hlt hgroup

theorem decStep_inv (h : s.Inv) (ht : decStep s = .next t) : t.Inv := by
  obtain ⟨-, rfl⟩ | ⟨hb, -, rfl⟩ | ⟨hb, hlt, hgroup⟩ := decStep_next ht
  · exact h
  · have hbusy := h.decBusy hb
    have hin : fits s.cfg.outCapDec s.dec.oidx = true := fits_mono hbusy.room hbusy.oidx_le_decEstimate
    exact complete_inv h hb hin hbusy.written
  · exact decGroupStep_inv h hb hlt hgroup

/-! ### The step keeps the invariant -/

theorem runEvent_inv {ev : Event} (h : s.Inv) (ht : runEvent ev s = .next t) : t.Inv := by
  match ev with
  | .host a => exact hostAct_inv h ht
  | .engine .enc => exact encStep_inv h ht
  | .engine .dec => exact decStep_inv h ht

theorem runIdle_inv (h : s.Inv) (ht : runIdle s = .next t) : t.Inv := by
  unfold runIdle at ht
  split at ht
  · exact encStep_inv h ht
  · exact decStep_inv h ht

theorem step_inv (h : s.Inv) (ht : step s = .next t) : t.Inv := by
  unfold step at ht
  split at ht
  · rename_i ev rest _
    have hrest : State.Inv { s with agenda := rest } := { h with }
    exact runEvent_inv hrest ht
  · exact runIdle_inv h ht

end

/-- Settles O47: the agenda's events and the engines' own turns are made of operations that keep the invariant. -/
theorem everyStepKeepsTheInvariant : Obligations.EveryStepKeepsTheInvariant :=
  fun _ _ h ht => step_inv h ht

/-! ### Reset -/

@[simp] theorem resetWith_engine (cfg : Config) (e : EngineId) :
    (State.resetWith cfg).engine e = Engine.resetWith cfg e 0 := by
  cases e <;> rfl

theorem resetWith_inv (cfg : Config) : (State.resetWith cfg).Inv := by
  refine inv_iff.mpr ⟨fun e => ?_, rfl, rfl⟩
  rw [resetWith_engine]
  exact engineResetWith_sound cfg e 0

/-- Settles O46: a reset engine is sound, whatever the parameters. -/
theorem resetMeetsTheInvariant : Obligations.ResetMeetsTheInvariant :=
  ⟨resetWith_inv, resetWith_inv Config.unbounded⟩

/-- Settles O40: both engines are at `Engine.resetWith`, whose buffers list no cell. -/
theorem resetValues : Obligations.ResetValues := by
  intro cfg e
  simp only [resetWith_engine]
  exact ⟨rfl, rfl, rfl, rfl, fun i => ⟨read_nil i, read_nil i⟩, rfl, rfl⟩

end Sys2Proof.Machine
end

section
/-! PROOFS. The turn of an engine as one effect on the state, chosen by what the turn reads: the parameters, the
engine's registers and cells of its input buffer (41_encoder.md R142 to R151, 42_decoder.md R173 to R182). -/

namespace Sys2Proof.Machine

/-! ### Effects -/

/-- What a turn can do to the state: nothing, the completion step, the error entry, or the store of `bs` by a group
step that has read `n` cells. -/
inductive TurnEffect where
  | pass
  | complete
  | raise
  | store (n : Nat) (bs : List Byte)

/-- The state after an effect in engine `e`. A store also ends the step's group registers. -/
def TurnEffect.apply (e : EngineId) (s : State) : TurnEffect → State
  | .pass => s
  | .complete => Machine.complete e s
  | .raise => Machine.raise e .invalidCharacter s
  | .store n bs => clearGroup e (s.setEngine e ((s.engine e).stored n bs))

/-- The outcome of a turn in `s` with this effect or fault. -/
def effectOutcome (e : EngineId) (s : State) : Except Fault TurnEffect → Host.Outcome State Fault Refusal
  | .ok eff => .next (eff.apply e s)
  | .error x => .fault x

theorem effectOutcome_eq_next_iff {e : EngineId} {s t : State} {r : Except Fault TurnEffect} :
    effectOutcome e s r = .next t ↔ ∃ eff, r = .ok eff ∧ t = eff.apply e s := by
  cases r <;> simp [effectOutcome, eq_comm (b := t)]

/-- The cells that the encoder's group step stores (41_encoder.md R144 to R148). -/
def encodedGroup (s : State) : List Byte :=
  encCells s.enc.len s.enc.oidx
    (encGroupOf (encInput s s.enc.idx) (encInput s (s.enc.idx + 1)) (encInput s (s.enc.idx + 2)))

/-- `decgroup` of the four cells at `IDX.DEC` (42_decoder.md R182). -/
def decodedGroup (s : State) : Option (List Byte) :=
  decGroupOf (inputCell .dec s s.dec.idx) (inputCell .dec s (s.dec.idx + 1)) (inputCell .dec s (s.dec.idx + 2))
    (inputCell .dec s (s.dec.idx + 3))

/-- The effect of the decoder's group step once its cells decode to `result`. -/
def decodedEffect (s : State) (result : Option (List Byte)) : Except Fault TurnEffect :=
  match result with
  | none => .ok .raise
  | some ys =>
    if fits s.cfg.outCapDec (s.dec.oidx + ys.length) then .ok (.store 4 ys) else .error (.outputCellAbsent .dec)

/-- The effect of the group step of an engine. -/
def groupEffect (s : State) : EngineId → Except Fault TurnEffect
  | .enc =>
    if fits s.cfg.inCapEnc (min (s.enc.idx + 3) s.enc.len) then
      if fits s.cfg.outCapEnc (s.enc.oidx + 4) then .ok (.store 3 (encodedGroup s))
      else .error (.outputCellAbsent .enc)
    else .error (.inputCellAbsent .enc)
  | .dec =>
    if fits s.cfg.inCapDec (s.dec.idx + 4) then decodedEffect s (decodedGroup s)
    else .error (.inputCellAbsent .dec)

/-- The effect of the turn of an engine. -/
def turnEffect (s : State) (e : EngineId) : Except Fault TurnEffect :=
  if (s.engine e).phase = .busy then
    if (s.engine e).idx < (s.engine e).len then groupEffect s e else .ok .complete
  else .ok .pass

/-! ### The decoder's lanes compute `decgroup` -/

theorem inSet65_eq_false_iff {c : Byte} : inSet65 c = false ↔ inv c = none ∧ isPad c = false := by
  simp [inSet65]

/-- `s` inside the decoder's group step, the group registers holding `g`. -/
def State.inGroup (s : State) (g : DecGroup) : State := { s with decGroup := some g }

/-- The decoder's group registers once its four cells are fetched (42_decoder.md R173). -/
def fetchedGroup (c1 c2 c3 c4 : Byte) : DecGroup :=
  { c1 := c1, c2 := c2, c3 := c3, c4 := c4, i1 := none, i2 := none, i3 := none, i4 := none, lane := 1 }

/-- The cells still to come run in their lanes, and the store follows. -/
def runLanes : List Byte → State → Host.Outcome State Fault Refusal
  | [], s => decStore s
  | c :: cs, s => andThen (runLane c s) (runLanes cs)

theorem decGroupStep_eq_runLanes {s : State} (hin : fits s.cfg.inCapDec (s.dec.idx + 4) = true) :
    decGroupStep s =
      runLanes [inputCell .dec s s.dec.idx, inputCell .dec s (s.dec.idx + 1), inputCell .dec s (s.dec.idx + 2),
        inputCell .dec s (s.dec.idx + 3)] (decFetch s) := by
  simp only [decGroupStep, hin, if_true, andThen_assoc]
  rfl

section
variable {c : Byte} (cs : List Byte) {s : State} {g : DecGroup}

theorem runLanes_nil :
    runLanes [] (s.inGroup g) = effectOutcome .dec s (decodedEffect s (some (groupBytes g))) := by
  simp only [decodedEffect, apply_ite (effectOutcome .dec s)]
  rfl

theorem runLanes_cons {t : State} (h : runLane c s = .next t) : runLanes (c :: cs) s = runLanes cs t := by
  simp [runLanes, h]

/-- After a raise the lanes and the store do nothing (60_exceptions.md R227). -/
theorem runLanes_of_no_group (h : s.decGroup = none) : runLanes cs s = .next s := by
  induction cs with
  | nil => simp [runLanes, decStore, h]
  | cons c cs ih => rw [runLanes_cons cs (runLane_none h), ih]

theorem runLanes_of_raise (h : runLane c (s.inGroup g) = .next (raise .dec .invalidCharacter s)) :
    runLanes (c :: cs) (s.inGroup g) = effectOutcome .dec s (decodedEffect s none) :=
  (runLanes_cons cs h).trans (runLanes_of_no_group cs rfl)

theorem runLanes_symbol {k : Index} (hc : inv c = some k) :
    runLanes (c :: cs) (s.inGroup g) = runLanes cs (s.inGroup (formIndex k g)) :=
  runLanes_cons cs (runLane_symbol rfl hc)

/-- Padding in lane 3 or 4 (42_decoder.md R177 to R179). -/
theorem runLanes_pad (hc : isPad c = true) (hl : ¬(g.lane = 1 ∨ g.lane = 2)) :
    runLanes (c :: cs) (s.inGroup g) = runLanes cs (s.inGroup (skipIndex g)) :=
  runLanes_cons cs ((runLane_pad rfl hc).trans (takePad_late rfl hl))

theorem runLanes_invalid (hc : inSet65 c = false) :
    runLanes (c :: cs) (s.inGroup g) = effectOutcome .dec s (decodedEffect s none) :=
  runLanes_of_raise cs (runLane_invalid rfl hc)

/-- In the first two lanes every cell without an index raises, padding too (42_decoder.md R175). -/
theorem runLanes_no_index (hc : inv c = none) (hl : g.lane = 1 ∨ g.lane = 2) :
    runLanes (c :: cs) (s.inGroup g) = effectOutcome .dec s (decodedEffect s none) := by
  cases hp : isPad c with
  | true => exact runLanes_of_raise cs ((runLane_pad rfl hp).trans (takePad_early rfl hl))
  | false => exact runLanes_invalid cs (inSet65_eq_false_iff.mpr ⟨hc, hp⟩)

end

/-- The lanes run on the four cells in order, and the first that fails raises; lane 4 forms no index after padding in
lane 3 (42_decoder.md R179). -/
theorem runLanes_fetchedGroup (s : State) (c1 c2 c3 c4 : Byte) :
    runLanes [c1, c2, c3, c4] (s.inGroup (fetchedGroup c1 c2 c3 c4)) =
      effectOutcome .dec s (decodedEffect s (decGroupOf c1 c2 c3 c4)) := by
  cases h1 : inv c1 with
  | none =>
    rw [runLanes_no_index _ h1 (.inl rfl)]
    simp [decGroupOf, h1]
  | some i1 =>
    rw [runLanes_symbol _ h1]
    cases h2 : inv c2 with
    | none =>
      rw [runLanes_no_index _ h2 (.inr rfl)]
      simp [decGroupOf, h1, h2]
    | some i2 =>
      rw [runLanes_symbol _ h2]
      obtain ⟨hp3, -⟩ | ⟨i3, h3, hp3⟩ | hbad3 := cell_cases c3
      · rw [runLanes_pad _ hp3 (by simp [fetchedGroup, formIndex])]
        obtain ⟨hp4, -⟩ | ⟨i4, h4, -⟩ | hbad4 := cell_cases c4
        · rw [runLanes_pad _ hp4 (by simp [fetchedGroup, formIndex, skipIndex]), runLanes_nil]
          simp [decGroupOf, h1, h2, hp3, hp4, inSet65, groupBytes, fetchedGroup, formIndex, skipIndex]
        · rw [runLanes_symbol _ h4, runLanes_nil]
          simp [decGroupOf, h1, h2, hp3, h4, inSet65, groupBytes, fetchedGroup, formIndex, skipIndex]
        · rw [runLanes_invalid _ hbad4]
          simp [decGroupOf, h1, h2, hp3, hbad4]
      · rw [runLanes_symbol _ h3]
        obtain ⟨hp4, -⟩ | ⟨i4, h4, hp4⟩ | hbad4 := cell_cases c4
        · rw [runLanes_pad _ hp4 (by simp [fetchedGroup, formIndex]), runLanes_nil]
          simp [decGroupOf, h1, h2, hp3, h3, hp4, groupBytes, fetchedGroup, formIndex, skipIndex]
        · rw [runLanes_symbol _ h4, runLanes_nil]
          simp [decGroupOf, h1, h2, hp3, h3, hp4, h4, groupBytes, fetchedGroup, formIndex]
        · rw [runLanes_invalid _ hbad4]
          obtain ⟨hi4, hp4⟩ := inSet65_eq_false_iff.mp hbad4
          simp [decGroupOf, h1, h2, hp3, h3, hp4, hi4]
      · rw [runLanes_invalid _ hbad3]
        obtain ⟨hi3, hp3⟩ := inSet65_eq_false_iff.mp hbad3
        simp [decGroupOf, h1, h2, hp3, hi3]

/-! ### Every turn is its effect -/

theorem encGroupStep_eq_effect (s : State) : encGroupStep s = effectOutcome .enc s (groupEffect s .enc) := by
  rw [encGroupStep_eq, groupEffect]
  split
  · split <;> rfl
  · rfl

theorem decGroupStep_eq_effect (s : State) : decGroupStep s = effectOutcome .dec s (groupEffect s .dec) := by
  cases hin : fits s.cfg.inCapDec (s.dec.idx + 4) with
  | true =>
    rw [decGroupStep_eq_runLanes hin, groupEffect, if_pos hin]
    exact runLanes_fetchedGroup s _ _ _ _
  | false => simp [decGroupStep, groupEffect, effectOutcome, hin]

theorem engineStep_eq_effect (e : EngineId) (s : State) : engineStep e s = effectOutcome e s (turnEffect s e) := by
  simp only [turnEffect, apply_ite (effectOutcome e s)]
  cases e with
  | enc =>
    rw [← encGroupStep_eq_effect]
    rfl
  | dec =>
    rw [← decGroupStep_eq_effect]
    rfl

theorem engineStep_eq_next_iff {e : EngineId} {s t : State} :
    engineStep e s = .next t ↔ ∃ eff, turnEffect s e = .ok eff ∧ t = eff.apply e s := by
  rw [engineStep_eq_effect, effectOutcome_eq_next_iff]

/-! ### What an effect leaves unchanged -/

theorem complete_engine_other (s : State) {e e' : EngineId} (h : e' ≠ e) :
    (complete e s).engine e' = s.engine e' :=
  setEngine_engine_other s _ h

theorem raise_engine_other (s : State) {e e' : EngineId} (c : Condition) (h : e' ≠ e) :
    (raise e c s).engine e' = s.engine e' :=
  (clearGroup_engine e e' _).trans (setEngine_engine_other s _ h)

@[simp] theorem TurnEffect.apply_cfg (e : EngineId) (s : State) (eff : TurnEffect) : (eff.apply e s).cfg = s.cfg := by
  cases eff <;> simp [TurnEffect.apply]

@[simp] theorem TurnEffect.apply_epoch (e : EngineId) (s : State) (eff : TurnEffect) :
    (eff.apply e s).epoch = s.epoch := by
  cases eff <;> simp [TurnEffect.apply]

@[simp] theorem TurnEffect.apply_engine_len (e : EngineId) (s : State) (eff : TurnEffect) :
    ((eff.apply e s).engine e).len = (s.engine e).len := by
  cases eff <;> simp [TurnEffect.apply, Engine.stored]

@[simp] theorem TurnEffect.apply_engine_input (e : EngineId) (s : State) (eff : TurnEffect) :
    ((eff.apply e s).engine e).input = (s.engine e).input := by
  cases eff <;> simp [TurnEffect.apply, Engine.stored]

theorem TurnEffect.apply_engine_other (s : State) {e e' : EngineId} (eff : TurnEffect) (h : e' ≠ e) :
    (eff.apply e s).engine e' = s.engine e' := by
  cases eff with
  | pass => rfl
  | complete => exact complete_engine_other s h
  | raise => exact raise_engine_other s _ h
  | store n bs => simp [TurnEffect.apply, setEngine_engine_other s _ h]

@[simp] theorem TurnEffect.apply_enc_decGroup (s : State) (eff : TurnEffect) :
    (eff.apply .enc s).decGroup = s.decGroup := by
  cases eff <;> simp [TurnEffect.apply]

@[simp] theorem TurnEffect.apply_dec_encGroup (s : State) (eff : TurnEffect) :
    (eff.apply .dec s).encGroup = s.encGroup := by
  cases eff <;> simp [TurnEffect.apply]

/-! ### What an effect and its choice depend on -/

/-- An effect on an engine depends on nothing but the parameters and that engine. -/
theorem TurnEffect.apply_engine_congr {e : EngineId} {s s' : State} (eff : TurnEffect) (hcfg : s'.cfg = s.cfg)
    (hengine : s'.engine e = s.engine e) : (eff.apply e s').engine e = (eff.apply e s).engine e := by
  cases eff <;> simp [TurnEffect.apply, Machine.complete, Machine.raise, hcfg, hengine]

/-- The input cells that a turn may read: the encoder reads nothing at or beyond LEN (20_memory.md R68), the decoder the
four cells at IDX (42_decoder.md R173). -/
def TurnReads (x : Engine) : EngineId → Nat → Prop
  | .enc, i => i < x.len
  | .dec, i => x.idx < x.len ∧ i < x.idx + 4

/-- Engine `e` finds the same in `s'` as in `s`: the parameters, its registers and the input cells that its turn may
read. -/
structure SameTurnView (e : EngineId) (s s' : State) : Prop where
  cfg : s'.cfg = s.cfg
  phase : (s'.engine e).phase = (s.engine e).phase
  len : (s'.engine e).len = (s.engine e).len
  idx : (s'.engine e).idx = (s.engine e).idx
  oidx : (s'.engine e).oidx = (s.engine e).oidx
  cells : ∀ i, TurnReads (s.engine e) e i → inputCell e s' i = inputCell e s i

theorem encodedGroup_congr {s s' : State} (h : SameTurnView .enc s s') : encodedGroup s' = encodedGroup s := by
  have hlen : s'.enc.len = s.enc.len := h.len
  have hidx : s'.enc.idx = s.enc.idx := h.idx
  have hoidx : s'.enc.oidx = s.enc.oidx := h.oidx
  have hinput (i : Nat) : encInput s' i = encInput s i := by
    by_cases hi : i < s.enc.len
    · simp [encInput, hlen, hi, h.cells i hi]
    · simp [encInput, hlen, hi]
  simp [encodedGroup, hlen, hidx, hoidx, hinput]

theorem decodedGroup_congr {s s' : State} (h : SameTurnView .dec s s') (hlt : s.dec.idx < s.dec.len) :
    decodedGroup s' = decodedGroup s := by
  have hidx : s'.dec.idx = s.dec.idx := h.idx
  have hcell (i : Nat) (hi : i < s.dec.idx + 4) : inputCell .dec s' i = inputCell .dec s i := h.cells i ⟨hlt, hi⟩
  simp [decodedGroup, hidx, hcell]

theorem groupEffect_congr {e : EngineId} {s s' : State} (h : SameTurnView e s s')
    (hlt : (s.engine e).idx < (s.engine e).len) : groupEffect s' e = groupEffect s e := by
  cases e with
  | enc =>
    have hlen : s'.enc.len = s.enc.len := h.len
    have hidx : s'.enc.idx = s.enc.idx := h.idx
    have hoidx : s'.enc.oidx = s.enc.oidx := h.oidx
    simp only [groupEffect, h.cfg, hlen, hidx, hoidx, encodedGroup_congr h]
  | dec =>
    have hidx : s'.dec.idx = s.dec.idx := h.idx
    have hoidx : s'.dec.oidx = s.dec.oidx := h.oidx
    simp only [groupEffect, decodedEffect, h.cfg, hidx, hoidx, decodedGroup_congr h hlt]

/-- The choice of the effect depends on the turn's view only. -/
theorem turnEffect_congr {e : EngineId} {s s' : State} (h : SameTurnView e s s') :
    turnEffect s' e = turnEffect s e := by
  simp only [turnEffect, h.phase, h.idx, h.len]
  by_cases hlt : (s.engine e).idx < (s.engine e).len
  · rw [groupEffect_congr h hlt]
  · simp only [hlt, if_false]

/-- In a state that looks the same to engine `e`, its turn has the same effect. -/
theorem engineStep_congr {e : EngineId} {s s' t : State} (h : SameTurnView e s s') (ht : engineStep e s = .next t) :
    ∃ eff : TurnEffect, t = eff.apply e s ∧ engineStep e s' = .next (eff.apply e s') := by
  obtain ⟨eff, heff, rfl⟩ := engineStep_eq_next_iff.mp ht
  exact ⟨eff, rfl, engineStep_eq_next_iff.mpr ⟨eff, (turnEffect_congr h).trans heff, rfl⟩⟩

end Sys2Proof.Machine
end

section
/-! PROOFS. The engines share no memory (20_memory.md R76), each reads its message only (R68), and a BUSY engine is left
alone by everything but its own turn and Reset (R72, R77). -/

namespace Sys2Proof.Machine

theorem inputCell_congr {e : EngineId} {s s' : State} {i : Nat} (hepoch : s'.epoch = s.epoch)
    (hread : (s'.engine e).input.read i = (s.engine e).input.read i) : inputCell e s' i = inputCell e s i := by
  simp [inputCell, hepoch, hread]

/-! ### The engines are independent -/

theorem sameTurnView_of_same_engine {e : EngineId} {s s' : State} (hcfg : s'.cfg = s.cfg)
    (hepoch : s'.epoch = s.epoch) (hengine : s'.engine e = s.engine e) : SameTurnView e s s' where
  cfg := hcfg
  phase := by rw [hengine]
  len := by rw [hengine]
  idx := by rw [hengine]
  oidx := by rw [hengine]
  cells _ _ := inputCell_congr hepoch (by rw [hengine])

/-- Settles O29: the effect of a turn touches its own engine only, and both the effect and its choice depend on nothing
of the other. -/
theorem enginesAreIndependent : Obligations.EnginesAreIndependent := by
  refine ⟨fun s t ht => ?_, fun s t ht => ?_, fun e s s' t hcfg hepoch hengine ht => ?_⟩
  · obtain ⟨eff, -, rfl⟩ := engineStep_eq_next_iff.mp ht
    exact ⟨TurnEffect.apply_engine_other s (e' := .dec) eff nofun, TurnEffect.apply_enc_decGroup s eff⟩
  · obtain ⟨eff, -, rfl⟩ := engineStep_eq_next_iff.mp ht
    exact ⟨TurnEffect.apply_engine_other s (e' := .enc) eff nofun, TurnEffect.apply_dec_encGroup s eff⟩
  · have hview := sameTurnView_of_same_engine hcfg.symm hepoch.symm hengine.symm
    obtain ⟨eff, rfl, ht'⟩ := engineStep_congr hview ht
    exact ⟨_, ht', TurnEffect.apply_engine_congr eff hcfg.symm hengine.symm⟩

/-! ### An engine reads only the message -/

/-- `s` with another input buffer in engine `e`. -/
def State.withInput (s : State) (e : EngineId) (m : Memory) : State :=
  s.setEngine e { s.engine e with input := m }

/-- No effect touches the input buffer, or depends on it. -/
theorem TurnEffect.apply_withInput (e : EngineId) (s : State) (m : Memory) (eff : TurnEffect) :
    eff.apply e (s.withInput e m) = (eff.apply e s).withInput e m := by
  cases eff <;> cases e <;> rfl

theorem sameTurnView_withInput {e : EngineId} {s : State} {m : Memory}
    (h : ∀ i, TurnReads (s.engine e) e i → m.read i = (s.engine e).input.read i) :
    SameTurnView e s (s.withInput e m) where
  cfg := by simp [State.withInput]
  phase := by simp [State.withInput]
  len := by simp [State.withInput]
  idx := by simp [State.withInput]
  oidx := by simp [State.withInput]
  cells i hi := inputCell_congr (by simp [State.withInput]) (by simpa [State.withInput] using h i hi)

theorem engineStep_withInput {e : EngineId} {s t : State} {m : Memory}
    (h : ∀ i, TurnReads (s.engine e) e i → m.read i = (s.engine e).input.read i) (ht : engineStep e s = .next t) :
    engineStep e (s.withInput e m) = .next (t.withInput e m) := by
  obtain ⟨eff, rfl, ht'⟩ := engineStep_congr (sameTurnView_withInput h) ht
  rw [ht', TurnEffect.apply_withInput]

/-- Settles O30: with IDX and LEN multiples of 4 the decoder's group, too, lies inside the message. -/
theorem onlyTheMessageIsRead : Obligations.OnlyTheMessageIsRead := by
  refine ⟨fun s t m hm ht => engineStep_withInput (e := .enc) hm ht, fun s t m hidx hlen hm ht => ?_⟩
  have hreads : ∀ i, TurnReads s.dec .dec i → m.read i = s.dec.input.read i := by
    rintro i ⟨hlt, hi⟩
    exact hm i (by omega)
  exact engineStep_withInput (e := .dec) hreads ht

/-! ### A BUSY engine is left alone -/

/-- From `s` to `t` the parameters, the count of resets and engine `e` stay. -/
structure KeepsEngine (e : EngineId) (s t : State) : Prop where
  cfg : t.cfg = s.cfg
  epoch : t.epoch = s.epoch
  engine : t.engine e = s.engine e

theorem KeepsEngine.refl (e : EngineId) (s : State) : KeepsEngine e s s := ⟨rfl, rfl, rfl⟩

theorem keepsEngine_setEngine {e e' : EngineId} (s : State) (x : Engine) (h : e' ≠ e) :
    KeepsEngine e' s (s.setEngine e x) :=
  ⟨by simp, by simp, setEngine_engine_other s x h⟩

theorem keepsEngine_start {e e' : EngineId} (s : State) (problem : Option Condition) (h : e' ≠ e) :
    KeepsEngine e' s (start e problem s) := by
  cases problem with
  | none =>
    rw [start_none_eq]
    exact keepsEngine_setEngine s _ h
  | some c =>
    rw [start_some_eq]
    exact ⟨by simp, by simp, raise_engine_other s c h⟩

/-- Everything a command word can do: nothing, or the START transition of an engine that is not BUSY (43_control.md
R206). -/
theorem hostCmd_next {w : Byte} {s t : State} (h : hostCmd w s = .next t) :
    t = s ∨ ∃ e problem, (s.engine e).phase ≠ .busy ∧ t = start e problem s := by
  obtain ⟨-, hw⟩ | ⟨-, hw⟩ | ⟨-, hw⟩ | ⟨-, hw⟩ := hostCmd_cases w s <;> rw [hw] at h
  · unfold execEncode at h
    split at h <;> obtain rfl := Host.Outcome.next.inj h
    · exact .inl rfl
    · exact .inr ⟨.enc, _, ‹_›, rfl⟩
  · unfold execDecode at h
    split at h <;> obtain rfl := Host.Outcome.next.inj h
    · exact .inl rfl
    · exact .inr ⟨.dec, _, ‹_›, rfl⟩
  · exact .inl (Host.Outcome.next.inj h).symm
  · exact .inl (Host.Outcome.next.inj h).symm

section
variable {e : EngineId} {s t : State}

theorem ne_of_busy_of_not_busy {e' : EngineId} (hb : (s.engine e).phase = .busy)
    (hnb : (s.engine e').phase ≠ .busy) : e ≠ e' := by
  rintro rfl
  exact hnb hb

/-- No host action but Reset changes anything of a BUSY engine (20_memory.md R72). -/
theorem hostAct_keepsEngine {a : HostAction} (hb : (s.engine e).phase = .busy) (ha : a ≠ .reset)
    (ht : hostAct a s = .next t) : KeepsEngine e s t := by
  cases a with
  | cmd w =>
    obtain rfl | ⟨e', problem, hnb, rfl⟩ := hostCmd_next ht
    · exact .refl e t
    · exact keepsEngine_start s problem (ne_of_busy_of_not_busy hb hnb)
  | writeLen e' v =>
    obtain ⟨-, ⟨-, rfl⟩ | ⟨hnb, rfl⟩⟩ := hostWriteLen_next ht
    · exact .refl e t
    · exact keepsEngine_setEngine s _ (ne_of_busy_of_not_busy hb hnb)
  | writeIn e' i c =>
    obtain ⟨-, ⟨-, rfl⟩ | ⟨hnb, rfl⟩⟩ := hostWriteIn_next ht
    · exact .refl e t
    · exact keepsEngine_setEngine s _ (ne_of_busy_of_not_busy hb hnb)
  | readOut e' i =>
    obtain ⟨-, c, n, rfl, -⟩ := hostReadOut_next ht
    exact ⟨rfl, rfl, by cases e <;> rfl⟩
  | readStatus e' | readLen e' | readOlen e' =>
    obtain rfl := Host.Outcome.next.inj ht
    exact ⟨rfl, rfl, by cases e <;> rfl⟩
  | writeStatus e' w | writeOlen e' v => exact Host.Outcome.next.inj ht ▸ .refl e s
  | reset => exact absurd rfl ha

/-- The other engine's turn changes nothing of an engine (20_memory.md R77). -/
theorem engineStep_keepsEngine {e' : EngineId} (h : e ≠ e') (ht : engineStep e' s = .next t) : KeepsEngine e s t := by
  obtain ⟨eff, -, rfl⟩ := engineStep_eq_next_iff.mp ht
  exact ⟨by simp, by simp, TurnEffect.apply_engine_other s eff h⟩

end

/-- Settles O38: an event is a host action, the other engine's turn or the engine's own, whose effects keep LEN and
IN. -/
theorem messageIsStableWhileBusy : Obligations.MessageIsStableWhileBusy := by
  intro e ev s t hb hreset ht
  by_cases hown : ev = .engine e
  · subst hown
    obtain ⟨eff, -, rfl⟩ := engineStep_eq_next_iff.mp ht
    exact ⟨by simp, by simp, by simp, by simp, fun h => absurd rfl h⟩
  · have hkeeps : KeepsEngine e s t := by
      cases ev with
      | host a => exact hostAct_keepsEngine hb (fun ha => hreset (ha ▸ rfl)) ht
      | engine e' => exact engineStep_keepsEngine (fun he => hown (he ▸ rfl)) ht
    obtain ⟨hcfg, hepoch, hengine⟩ := hkeeps
    exact ⟨hcfg, hepoch, by rw [hengine], by rw [hengine], fun _ => hengine⟩

end Sys2Proof.Machine
end

section
/-! PROOFS. The two kinds of word and their decoders (30_encoding.md R90, R91, R94, R98, R99): each decoder answers an
instruction only for that instruction's own word. -/

namespace Sys2Proof.Machine

/-! ### The character table -/

theorem inv_alpha (k : Index) : inv (alpha k) = some k := by
  revert k; decide

theorem alpha_of_inv {c : Byte} {k : Index} (h : inv c = some k) : alpha k = c := by
  unfold inv at h
  split_ifs at h with hupper hlower hdigit hplus hslash <;> obtain rfl := Option.some.inj h
  case pos | pos | pos => simp only [alpha]; split_ifs <;> bv_omega
  · exact hplus.symm
  · exact hslash.symm

theorem alpha_injective : Function.Injective alpha := fun k k' h =>
  Option.some.inj ((inv_alpha k).symm.trans (h ▸ inv_alpha k'))

theorem symbolOf_injective : Function.Injective symbolOf := fun k k' h =>
  alpha_injective (by rw [← word_symbolOf, h, word_symbolOf])

/-- No character is a command word: the lowest is `+`, 0x2B (log entry 14). -/
theorem reserved_alpha (k : Index) : 0x04 ≤ alpha k := by
  revert k; decide

/-! ### Every instruction is a command or a character -/

theorem inv_word_nop (eng : BitVec 1) : inv (word (.nop eng)) = none := by
  revert eng; decide

/-- The row whose word has index `k` is `SYM_k`. -/
theorem eq_symbolOf_of_inv_word {i : Instr} {k : Index} (h : inv (word i) = some k) : i = symbolOf k := by
  cases i with
  | nop eng => rw [inv_word_nop] at h; cases h
  | _ => cases h <;> rfl

theorem instr_cases (i : Instr) :
    i = .encode ∨ i = .decode ∨ (∃ eng, i = .nop eng) ∨ (∃ k, i = symbolOf k) ∨ i = .symPad := by
  cases hinv : inv (word i) with
  | some k => exact .inr (.inr (.inr (.inl ⟨k, eq_symbolOf_of_inv_word hinv⟩)))
  | none =>
    cases i with
    | encode => exact .inl rfl
    | decode => exact .inr (.inl rfl)
    | nop eng => exact .inr (.inr (.inl ⟨eng, rfl⟩))
    | symPad => exact .inr (.inr (.inr (.inr rfl)))
    | _ => cases hinv

/-- Settles O19: a row that is no character has no index, and `ALPHA` is injective on the indices. -/
theorem everyInstructionIsCommandOrCharacter : Obligations.EveryInstructionIsCommandOrCharacter :=
  ⟨instr_cases, fun _ _ h => symbolOf_injective h⟩

/-! ### Command words -/

theorem command_cases (w : Byte) : w = 0x00 ∨ w = 0x01 ∨ w = 0x02 ∨ w = 0x03 ∨ 0x04 ≤ w := by bv_omega

theorem decodeCommand_of_reserved {w : Byte} (h : 0x04 ≤ w) : decodeCommand w = .error (.reservedCommand w) := by
  have hrsv : w.extractLsb' 2 6 ≠ 0#6 := fun hzero => by
    have hshift : w.toNat >>> 2 % 2 ^ 6 = 0 := by simpa using congrArg BitVec.toNat hzero
    rw [Nat.shiftRight_eq_div_pow] at hshift
    bv_omega
  simp [decodeCommand, hrsv]

theorem word_of_decodeCommand {w : Byte} {i : Instr} (h : decodeCommand w = .ok i) : word i = w := by
  obtain rfl | rfl | rfl | rfl | hw := command_cases w
  case inr.inr.inr.inr => rw [decodeCommand_of_reserved hw] at h; cases h
  all_goals cases h; rfl

/-- A word runs as what it decodes to, and one that is no command is ignored (43_control.md R205). -/
theorem hostCmd_of_ok {w : Byte} {i : Instr} (h : decodeCommand w = .ok i) (s : State) : hostCmd w s = exec i s := by
  simp [hostCmd, h]

theorem hostCmd_of_reserved {w : Byte} (h : 0x04 ≤ w) (s : State) : hostCmd w s = .next s := by
  simp [hostCmd, decodeCommand_of_reserved h]

/-- Settles O2, word by word below 0x04 and at once from there on. -/
theorem commandDecodeIsComplete : Obligations.CommandDecodeIsComplete := by
  intro w
  refine ⟨by rintro rfl; rfl, by rintro rfl; rfl, by rintro rfl; rfl, by rintro rfl; rfl,
    decodeCommand_of_reserved, fun s => ?_⟩
  obtain rfl | rfl | rfl | rfl | hw := command_cases w
  case inr.inr.inr.inr =>
    have h1 : w ≠ 0x01 := by rintro rfl; exact absurd hw (by decide)
    have h3 : w ≠ 0x03 := by rintro rfl; exact absurd hw (by decide)
    rw [if_neg h1, if_neg h3]
    exact hostCmd_of_reserved hw s
  all_goals rfl

/-! ### Characters -/

theorem word_of_decodeCell {c : Byte} {i : Instr} (h : decodeCell c = .ok i) : word i = c := by
  obtain ⟨hpad, -⟩ | ⟨k, hk, -⟩ | hbad := cell_cases c
  · obtain rfl := Except.ok.inj ((decodeCell_of_isPad hpad).symm.trans h)
    exact ((isPad_iff c).mp hpad).symm
  · obtain rfl := Except.ok.inj ((decodeCell_of_inv hk).symm.trans h)
    rw [word_symbolOf, alpha_of_inv hk]
  · rw [decodeCell_of_invalid hbad] at h
    cases h

/-! ### Both kinds -/

/-- A word decodes to `i` as a command, or is no command and decodes to `i` as a character. -/
def DecodesTo (w : Byte) (i : Instr) : Prop :=
  decodeCommand w = .ok i ∨ (∃ x, decodeCommand w = .error x) ∧ decodeCell w = .ok i

theorem decode_eq_ok_iff {bytes rest : List Byte} {i : Instr} :
    decode bytes = .ok (i, rest) ↔ ∃ w, bytes = w :: rest ∧ DecodesTo w i := by
  cases bytes with
  | nil => simp [decode]
  | cons w cs =>
    cases hcmd : decodeCommand w with
    | ok j => simp [decode, DecodesTo, hcmd, and_comm]
    | error x => cases hcell : decodeCell w <;> simp [decode, DecodesTo, hcmd, hcell, and_comm]

theorem decodesTo_iff {w : Byte} {i : Instr} : DecodesTo w i ↔ w = word i := by
  constructor
  · rintro (hcmd | ⟨-, hcell⟩)
    · exact (word_of_decodeCommand hcmd).symm
    · exact (word_of_decodeCell hcell).symm
  · rintro rfl
    obtain rfl | rfl | ⟨eng, rfl⟩ | ⟨k, rfl⟩ | rfl := instr_cases i
    · exact .inl rfl
    · exact .inl rfl
    · exact .inl (by revert eng; decide)
    · rw [word_symbolOf]
      exact .inr ⟨⟨_, decodeCommand_of_reserved (reserved_alpha k)⟩, decodeCell_of_inv (inv_alpha k)⟩
    · exact .inr ⟨⟨_, rfl⟩, rfl⟩

/-- Settles O1: a list decodes to `i` exactly when it begins with the word of `i`. -/
theorem decodeAndEncodeAreInverse : Obligations.DecodeAndEncodeAreInverse := by
  refine ⟨fun i rest _ => decode_eq_ok_iff.mpr ⟨word i, rfl, decodesTo_iff.mpr rfl⟩, fun bytes rest i h => ?_⟩
  obtain ⟨w, rfl, hw⟩ := decode_eq_ok_iff.mp h
  rw [decodesTo_iff.mp hw]
  rfl

theorem decodeTableWord_of_word {nbits w : Nat} {i : Instr} (h : firstWord nbits w = word i) :
    decodeTableWord nbits w = some i := by
  have hdecode : decode [word i] = .ok (i, []) := decode_eq_ok_iff.mpr ⟨_, rfl, decodesTo_iff.mpr rfl⟩
  simp [decodeTableWord, h, hdecode]

/-- Settles O3: the listed words are the words of their rows, and 0x5F is none. -/
theorem listedWordsDecode : Obligations.ListedWordsDecode :=
  ⟨decodeTableWord_of_word rfl, decodeTableWord_of_word rfl, decodeTableWord_of_word rfl, decodeTableWord_of_word rfl,
    decodeTableWord_of_word rfl, decodeTableWord_of_word rfl, decodeTableWord_of_word rfl, decodeTableWord_of_word rfl,
    decodeTableWord_of_word rfl, decodeTableWord_of_word rfl, decodeTableWord_of_word rfl, decodeTableWord_of_word rfl,
    decodeTableWord_of_word rfl, rfl⟩

end Sys2Proof.Machine
end

section
/-! PROOFS. The decoder's three bytes over natural numbers and as slices of the group (30_encoding.md R97). -/

namespace Sys2Proof.Machine

section
variable (i1 i2 i3 i4 : Index)

theorem byte1_toNat : (byte1 i1 i2).toNat = (i1.toNat <<< 2 ||| i2.toNat >>> 4) := by
  have hfits : i1.toNat <<< 2 < 2 ^ 8 := by rw [Nat.shiftLeft_eq]; omega
  simp only [byte1, BitVec.toNat_or, BitVec.toNat_shiftLeft, BitVec.toNat_ushiftRight,
    BitVec.toNat_setWidth_of_le (show 6 ≤ 8 by decide), Nat.mod_eq_of_lt hfits]

theorem byte2_toNat : (byte2 i2 i3).toNat = ((i2.toNat &&& 0xF) <<< 4 ||| i3.toNat >>> 2) := by
  have hmask : i2.toNat &&& 0xF ≤ 0xF := Nat.and_le_right
  have hfits : (i2.toNat &&& 0xF) <<< 4 < 2 ^ 8 := by rw [Nat.shiftLeft_eq]; omega
  simp only [byte2, BitVec.toNat_or, BitVec.toNat_and, BitVec.toNat_shiftLeft, BitVec.toNat_ushiftRight,
    BitVec.toNat_setWidth_of_le (show 6 ≤ 8 by decide), BitVec.reduceToNat, Nat.mod_eq_of_lt hfits]

theorem byte3_toNat : (byte3 i3 i4).toNat = ((i3.toNat &&& 0x3) <<< 6 ||| i4.toNat) := by
  have hmask : i3.toNat &&& 0x3 ≤ 0x3 := Nat.and_le_right
  have hfits : (i3.toNat &&& 0x3) <<< 6 < 2 ^ 8 := by rw [Nat.shiftLeft_eq]; omega
  simp only [byte3, BitVec.toNat_or, BitVec.toNat_and, BitVec.toNat_shiftLeft,
    BitVec.toNat_setWidth_of_le (show 6 ≤ 8 by decide), BitVec.reduceToNat, Nat.mod_eq_of_lt hfits]

theorem byte1_eq_slice : byte1 i1 i2 = (i1 ++ i2 ++ i3 ++ i4).extractLsb' 16 8 := by
  ext b hb
  simp only [BitVec.getElem_extractLsb', BitVec.getLsbD_append, byte1]
  interval_cases b <;> simp

theorem byte2_eq_slice : byte2 i2 i3 = (i1 ++ i2 ++ i3 ++ i4).extractLsb' 8 8 := by
  ext b hb
  simp only [BitVec.getElem_extractLsb', BitVec.getLsbD_append, byte2]
  interval_cases b <;> simp

theorem byte3_eq_slice : byte3 i3 i4 = (i1 ++ i2 ++ i3 ++ i4).extractLsb' 0 8 := by
  ext b hb
  simp only [BitVec.getElem_extractLsb', BitVec.getLsbD_append, byte3]
  interval_cases b <;> simp

end

/-- Settles O10: no shift leaves the byte, so nothing is truncated, and bit for bit the bytes are the slices. -/
theorem bytesAreSlicesOfTheIndices : Obligations.BytesAreSlicesOfTheIndices := fun i1 i2 i3 i4 =>
  ⟨byte1_toNat i1 i2, byte2_toNat i2 i3, byte3_toNat i3 i4,
    byte1_eq_slice i1 i2 i3 i4, byte2_eq_slice i1 i2 i3 i4, byte3_eq_slice i1 i2 i3 i4⟩

end Sys2Proof.Machine
end

section
/-! PROOFS. The STATUS words under the invariant (30_encoding.md R92, 10_state.md R36): an engine has a condition
exactly in ERROR. -/

namespace Sys2Proof.Machine

theorem EngineInv.error_iff_condition {cfg : Config} {e : EngineId} {x : Engine} (h : EngineInv cfg e x) :
    x.phase ≠ .error ∧ x.err = none ∨ ∃ c, x.phase = .error ∧ x.err = some c := by
  cases herr : x.err with
  | none => exact .inl ⟨fun hp => h.errIff.mpr hp herr, rfl⟩
  | some c => exact .inr ⟨c, h.errIff.mp (by simp [herr]), rfl⟩

theorem statusWord_of_no_error {x : Engine} (hphase : x.phase ≠ .error) (herr : x.err = none) :
    statusWord x ∈ [0x00#8, 0x01#8, 0x02#8] := by
  rw [statusWord, herr]
  cases hp : x.phase with
  | error => exact absurd hp hphase
  | idle | busy | done => decide

theorem statusWord_of_error {x : Engine} {c : Condition} (hphase : x.phase = .error) (herr : x.err = some c) :
    statusWord x = 0#4 ++ errCode (some c) ++ phaseCode .error := by
  rw [statusWord, hphase, herr]

/-- Settles O34: without an error the word is the code of the phase; with one it names the condition, which in the
encoder is AllocationFailure. -/
theorem statusWordsEverRead : Obligations.StatusWordsEverRead := by
  refine ⟨fun s h => ⟨?_, ?_⟩, fun _ _ _ => rfl, fun _ _ _ => rfl⟩
  · obtain ⟨hphase, herr⟩ | ⟨c, hphase, herr⟩ := h.enc.error_iff_condition
    · exact List.mem_append_left [0x0F#8] (statusWord_of_no_error hphase herr)
    · have halloc := h.encErr.resolve_left (by simp [herr])
      rw [statusWord_of_error hphase halloc]
      decide
  · obtain ⟨hphase, herr⟩ | ⟨c, hphase, herr⟩ := h.dec.error_iff_condition
    · exact List.mem_append_left [0x07#8, 0x0B#8, 0x0F#8] (statusWord_of_no_error hphase herr)
    · rw [statusWord_of_error hphase herr]
      cases c <;> decide

end Sys2Proof.Machine
end

section
/-! PROOFS. The texts that the decoder accepts (30_encoding.md R102, 42_decoder.md R182, R183), group by group. -/

namespace Sys2Proof.Machine

/-- A cell has an index exactly when it is valid and not padding. -/
theorem inv_isSome_iff {c : Byte} : (inv c).isSome = true ↔ inSet65 c = true ∧ c ≠ padCell := by
  obtain ⟨hp, -⟩ | ⟨k, hk, hp⟩ | hbad := cell_cases c
  · simp [(isPad_iff c).mp hp, inv_padCell]
  · have hne : c ≠ padCell := fun hc => by simp [isPad, hc] at hp
    simp [inSet65, hk, hne]
  · simp [hbad, (inSet65_eq_false_iff.mp hbad).1]

/-- A group is valid when its first two cells have an index and its last two are valid (42_decoder.md R182). -/
theorem decGroupOf_isSome_iff {c1 c2 c3 c4 : Byte} :
    (decGroupOf c1 c2 c3 c4).isSome = true ↔
      (inv c1).isSome = true ∧ (inv c2).isSome = true ∧ inSet65 c3 = true ∧ inSet65 c4 = true := by
  cases h1 : inv c1 with
  | none => simp [decGroupOf, h1]
  | some i1 =>
    cases h2 : inv c2 with
    | none => simp [decGroupOf, h1, h2]
    | some i2 =>
      obtain ⟨hp3, -⟩ | ⟨i3, h3, hp3⟩ | hbad3 := cell_cases c3
      · simp [decGroupOf, inSet65, h1, h2, hp3]
      · cases hp4 : isPad c4 <;> cases h4 : inv c4 <;> simp [decGroupOf, inSet65, h1, h2, h3, hp3, hp4, h4]
      · obtain ⟨h3, hp3⟩ := inSet65_eq_false_iff.mp hbad3
        simp [decGroupOf, inSet65, h1, h2, h3, hp3]

theorem decGroups_cons_isSome_iff {c1 c2 c3 c4 : Byte} {t : List Byte} :
    (decGroups (c1 :: c2 :: c3 :: c4 :: t)).isSome = true ↔
      (decGroupOf c1 c2 c3 c4).isSome = true ∧ (decGroups t).isSome = true := by
  rw [decGroups]
  cases decGroupOf c1 c2 c3 c4 <;> cases decGroups t <;> simp

/-- No group of the text has `=` at position 1 or 2. -/
def NoEarlyPad (t : List Byte) : Prop :=
  ∀ g, g < t.length / 4 → t[4 * g]? ≠ some padCell ∧ t[4 * g + 1]? ≠ some padCell

theorem noEarlyPad_nil : NoEarlyPad [] := fun _ hg => absurd hg (Nat.not_lt_zero _)

theorem noEarlyPad_cons_iff {c1 c2 c3 c4 : Byte} {t : List Byte} :
    NoEarlyPad (c1 :: c2 :: c3 :: c4 :: t) ↔ (c1 ≠ padCell ∧ c2 ≠ padCell) ∧ NoEarlyPad t := by
  have hgroups : (c1 :: c2 :: c3 :: c4 :: t).length / 4 = t.length / 4 + 1 := by
    simp only [List.length_cons]
    omega
  rw [NoEarlyPad, hgroups, Nat.forall_lt_succ_left]
  simp [NoEarlyPad, Nat.mul_add]

/-- A text of whole groups is valid when each of its cells and the first two positions of each group are
(42_decoder.md R183). -/
theorem decGroups_isSome_iff :
    ∀ t : List Byte, t.length % 4 = 0 →
      ((decGroups t).isSome = true ↔ (∀ c ∈ t, inSet65 c = true) ∧ NoEarlyPad t)
  | [], _ => by simp [decGroups, noEarlyPad_nil]
  | [_], h | [_, _], h | [_, _, _], h => absurd h (by simp)
  | c1 :: c2 :: c3 :: c4 :: t, h => by
    have ih := decGroups_isSome_iff t ((Nat.add_mod_right t.length 4).symm.trans h)
    rw [decGroups_cons_isSome_iff, decGroupOf_isSome_iff, inv_isSome_iff, inv_isSome_iff, noEarlyPad_cons_iff, ih]
    simp only [List.forall_mem_cons]
    tauto

theorem decText_eq_ok_iff {cap : Option Nat} {t y : List Byte} :
    decText cap t = .ok y ↔
      t.length % 4 = 0 ∧ fits cap (decEstimate t.length) = true ∧ decGroups t = some y := by
  by_cases hlen : t.length % 4 = 0
  · cases hroom : fits cap (decEstimate t.length) with
    | false => simp [decText, hlen, hroom]
    | true => cases hgroups : decGroups t <;> simp [decText, hlen, hroom, hgroups]
  · simp [decText, hlen]

/-- Settles O57: after the tests of length and room, a text is accepted when each of its groups is valid. -/
theorem acceptedTexts : Obligations.AcceptedTexts := by
  intro cap t
  simp only [decText_eq_ok_iff, exists_and_left, ← Option.isSome_iff_exists]
  refine and_congr_right fun hlen => and_congr_right fun _ => ?_
  exact decGroups_isSome_iff t hlen

end Sys2Proof.Machine
end

section
/-! PROOFS. The two lookups by their ranges (40_alphabet_lookup.md R120 to R124). The indices that `INV` answers
and the number of cells that have one follow from its being the inverse of `ALPHA`. -/

namespace Sys2Proof.Machine

/-! ### The ranges -/

/-- Settles O4: the five ranges are the five branches of the table. -/
theorem alphaFollowsItsRanges : Obligations.AlphaFollowsItsRanges := by
  intro k
  refine ⟨fun _ => ?_, fun _ => ?_, fun _ => ?_, fun _ => ?_, fun _ => ?_⟩ <;>
    (unfold alpha; split_ifs <;> bv_omega)

theorem inv_eq_some_iff {c : Byte} {k : Index} : inv c = some k ↔ alpha k = c :=
  ⟨alpha_of_inv, fun h => h ▸ inv_alpha k⟩

/-- A cell that is the character at position `n` of the alphabet has the index `n`. -/
theorem exists_inv_of_alpha {c : Byte} {n : Nat} (hn : n < 64)
    (h : ∀ k : Index, k.toNat = n → (alpha k).toNat = c.toNat) : ∃ k, inv c = some k ∧ k.toNat = n := by
  have hk : (BitVec.ofNat 6 n).toNat = n := Nat.mod_eq_of_lt hn
  exact ⟨_, inv_eq_some_iff.mpr (BitVec.eq_of_toNat_eq (h _ hk)), hk⟩

/-- The cells of the alphabet: `A` to `Z`, `a` to `z`, `0` to `9`, `+` and `/`. -/
theorem inv_isSome_iff_ranges {c : Byte} :
    (inv c).isSome = true ↔
      (0x41 ≤ c.toNat ∧ c.toNat ≤ 0x5A) ∨ (0x61 ≤ c.toNat ∧ c.toNat ≤ 0x7A) ∨
      (0x30 ≤ c.toNat ∧ c.toNat ≤ 0x39) ∨ c = 0x2B ∨ c = 0x2F := by
  unfold inv
  split_ifs <;>
    simp only [Option.isSome_some, Option.isSome_none, true_iff, Bool.false_eq_true, false_iff] <;> bv_omega

/-- Settles O5: each cell of a range is the character that `ALPHA` gives at the stated index, and no other cell has an
index. -/
theorem invFollowsItsRanges : Obligations.InvFollowsItsRanges := by
  intro c
  refine ⟨fun hc => ?upper, fun hc => ?lower, fun hc => ?digit, by rintro rfl; rfl, by rintro rfl; rfl,
    fun hupper hlower hdigit hplus hslash => ?other⟩
  case upper | lower | digit =>
    refine exists_inv_of_alpha (by omega) fun k hk => ?_
    obtain ⟨hupper, hlower, hdigit, -⟩ := alphaFollowsItsRanges k
    omega
  case other =>
    rw [← Option.not_isSome_iff_eq_none, inv_isSome_iff_ranges]
    tauto

/-! ### Counting cells -/

theorem nodup_bytes : ((List.range 256).map (BitVec.ofNat 8)).Nodup :=
  List.nodup_range.map_on fun m hm n hn h => by
    rw [List.mem_range] at hm hn
    have hmod : m % 256 = n % 256 := congrArg BitVec.toNat h
    omega

theorem mem_bytes (c : Byte) : c ∈ (List.range 256).map (BitVec.ofNat 8) :=
  List.mem_map.mpr ⟨c.toNat, List.mem_range.mpr c.isLt, BitVec.ofNat_toNat 8 c⟩

/-- As many cells pass a test as a list without repetitions has that holds just these cells. -/
theorem countP_cells {p : Byte → Bool} {cells : List Byte} (hnodup : cells.Nodup)
    (hmem : ∀ c, c ∈ cells ↔ p c = true) :
    ((List.range 256).countP fun n => p (BitVec.ofNat 8 n)) = cells.length := by
  have hperm : (((List.range 256).map (BitVec.ofNat 8)).filter p).Perm cells :=
    (List.perm_ext_iff_of_nodup (nodup_bytes.filter p) hnodup).mpr fun c => by
      simp only [List.mem_filter, mem_bytes, true_and, hmem]
  rw [← hperm.length_eq, ← List.countP_eq_length_filter, List.countP_map]
  rfl

/-- The 64 characters in the order of their indices (30_encoding.md R98). -/
def alphabet : List Byte := (List.range 64).map fun n => alpha (BitVec.ofNat 6 n)

theorem length_alphabet : alphabet.length = 64 := by simp [alphabet]

theorem nodup_alphabet : alphabet.Nodup :=
  List.nodup_range.map_on fun m hm n hn h => by
    rw [List.mem_range] at hm hn
    have hmod : m % 64 = n % 64 := congrArg BitVec.toNat (alpha_injective h)
    omega

theorem mem_alphabet_iff {c : Byte} : c ∈ alphabet ↔ (inv c).isSome = true := by
  simp only [Option.isSome_iff_exists, inv_eq_some_iff, alphabet, List.mem_map, List.mem_range]
  constructor
  · rintro ⟨n, -, hn⟩
    exact ⟨_, hn⟩
  · rintro ⟨k, hk⟩
    exact ⟨k.toNat, k.isLt, by rwa [BitVec.ofNat_toNat, BitVec.setWidth_eq]⟩

/-- Settles O6: the cells with an index are the 64 characters `ALPHA` gives. -/
theorem alphaAndInvAreInverse : Obligations.AlphaAndInvAreInverse :=
  ⟨inv_alpha, fun _ _ => alpha_of_inv,
    (countP_cells nodup_alphabet fun _ => mem_alphabet_iff).trans length_alphabet⟩

/-! ### The 65-symbol set -/

/-- The six ranges of invalid cells (30_encoding.md R100) are what the alphabet and `=` leave. -/
theorem inSet65_eq_false_iff_ranges {c : Byte} :
    inSet65 c = false ↔
      c.toNat ≤ 0x2A ∨ (0x2C ≤ c.toNat ∧ c.toNat ≤ 0x2E) ∨ (0x3A ≤ c.toNat ∧ c.toNat ≤ 0x3C) ∨
      (0x3E ≤ c.toNat ∧ c.toNat ≤ 0x40) ∨ (0x5B ≤ c.toNat ∧ c.toNat ≤ 0x60) ∨ 0x7B ≤ c.toNat := by
  rw [inSet65_eq_false_iff, ← Option.not_isSome_iff_eq_none, inv_isSome_iff_ranges,
    ← Bool.not_eq_true, isPad_iff, padCell]
  bv_omega

theorem nodup_padCell_cons_alphabet : (padCell :: alphabet).Nodup :=
  List.nodup_cons.mpr ⟨by simp [mem_alphabet_iff, inv_padCell], nodup_alphabet⟩

theorem mem_padCell_cons_alphabet_iff (c : Byte) : c ∈ padCell :: alphabet ↔ inSet65 c = true := by
  rw [List.mem_cons, mem_alphabet_iff, ← isPad_iff, inSet65, Bool.or_eq_true, or_comm]

theorem countP_inSet65 : ((List.range 256).countP fun n => inSet65 (BitVec.ofNat 8 n)) = 65 := by
  rw [countP_cells nodup_padCell_cons_alphabet mem_padCell_cons_alphabet_iff, List.length_cons, length_alphabet]

/-- The cells outside are the rest of the 256. -/
theorem countP_not_inSet65 : ((List.range 256).countP fun n => !inSet65 (BitVec.ofNat 8 n)) = 191 := by
  have hsum := (List.range 256).length_eq_countP_add_countP fun n => inSet65 (BitVec.ofNat 8 n)
  simp only [List.length_range, countP_inSet65, Bool.not_eq_true, Bool.decide_eq_false] at hsum
  omega

/-- Settles O7: the set is the alphabet and `=`, one cell more than the alphabet. -/
theorem sixtyFiveSymbolSet : Obligations.SixtyFiveSymbolSet :=
  ⟨isPad_iff, fun _ => by rw [inSet65, Bool.or_eq_true, Option.isSome_iff_ne_none],
    fun _ => inSet65_eq_false_iff_ranges, countP_inSet65, countP_not_inSet65⟩

end Sys2Proof.Machine
end

section
/-! PROOFS. The length functions of a message (00_scope.md R7, 41_encoder.md R141, 42_decoder.md R171): what each is
follows from the two inequalities that define the ceiling. -/

namespace Sys2Proof.Machine

/-- `ceil(a / b)` is the least integer not below the exact quotient (00_scope.md R7). -/
theorem ceilDiv_bounds (a : Nat) {b : Nat} (hb : 0 < b) : a ≤ b * ceilDiv a b ∧ b * ceilDiv a b < a + b := by
  have hdiv := Nat.div_add_mod (a + (b - 1)) b
  have hmod := Nat.mod_lt (a + (b - 1)) hb
  simp only [ceilDiv]
  omega

theorem encTotal_eq (n : Nat) : encTotal n = 4 * ceilDiv n 3 := rfl

theorem encData_bounds (n : Nat) : 4 * n ≤ 3 * encData n ∧ 3 * encData n < 4 * n + 3 :=
  ceilDiv_bounds (4 * n) (by decide)

/-- Data and padding make up the whole text (R141). -/
theorem encData_add_encPad (n : Nat) : encData n + encPad n = encTotal n := by
  have hgroups := ceilDiv_bounds n (b := 3) (by decide)
  have hdata := encData_bounds n
  rw [encPad, encTotal_eq]
  omega

theorem encData_le_encTotal (n : Nat) : encData n ≤ encTotal n :=
  Nat.le.intro (encData_add_encPad n)

theorem encPad_eq (n : Nat) : encPad n = (3 - n % 3) % 3 := by
  have hgroups := ceilDiv_bounds n (b := 3) (by decide)
  have hdata := encData_bounds n
  have hrest : n % 3 = 0 ∨ n % 3 = 1 ∨ n % 3 = 2 := by omega
  rw [encPad, encTotal_eq]
  obtain h | h | h := hrest <;> rw [h] <;> omega

theorem decEstimate_bounds (m : Nat) : 6 * m ≤ 8 * decEstimate m ∧ 8 * decEstimate m < 6 * m + 8 :=
  ceilDiv_bounds (6 * m) (by decide)

/-- Settles O8: each length is the one natural number between its bounds. -/
theorem lengthFunctions : Obligations.LengthFunctions := by
  refine ⟨fun n => ⟨ceilDiv n 3, encTotal_eq n, ceilDiv_bounds n (by decide)⟩, encData_bounds,
    fun n => ⟨encData_add_encPad n, encPad_eq n⟩, decEstimate_bounds, fun m hm => ?_⟩
  have := decEstimate_bounds m
  omega

end Sys2Proof.Machine
end

section
/-! PROOFS. The encoder's group registers (30_encoding.md R95, R96, 41_encoder.md R145, R146): the group is the three
cells side by side, and the masks and shifts take its slices. -/

namespace Sys2Proof.Machine

/-- The three cells occupy disjoint bits of the group. -/
theorem assemble_toNat (b1 b2 b3 : Byte) :
    (assemble b1 b2 b3).toNat = b1.toNat * 65536 + b2.toNat * 256 + b3.toNat := by
  have h1 : b1.toNat <<< 16 < 2 ^ 24 := by rw [Nat.shiftLeft_eq]; omega
  have h2 : b2.toNat <<< 8 < 2 ^ 16 := by rw [Nat.shiftLeft_eq]; omega
  have hlow : b2.toNat <<< 8 + b3.toNat < 2 ^ 16 := by rw [Nat.shiftLeft_eq]; omega
  simp only [assemble, BitVec.toNat_or, BitVec.toNat_shiftLeft, BitVec.toNat_setWidth_of_le (show 8 ≤ 24 by decide),
    Nat.mod_eq_of_lt h1, Nat.mod_eq_of_lt (h2.trans (show 2 ^ 16 < 2 ^ 24 by decide))]
  rw [Nat.or_assoc, ← Nat.shiftLeft_add_eq_or_of_lt b3.isLt, ← Nat.shiftLeft_add_eq_or_of_lt hlow,
    Nat.shiftLeft_eq, Nat.shiftLeft_eq]
  omega

theorem assemble_slice_first (b1 b2 b3 : Byte) : (assemble b1 b2 b3).extractLsb' 16 8 = b1 := by
  apply BitVec.eq_of_toNat_eq
  rw [BitVec.extractLsb'_toNat, assemble_toNat, Nat.shiftRight_eq_div_pow]
  omega

theorem assemble_slice_second (b1 b2 b3 : Byte) : (assemble b1 b2 b3).extractLsb' 8 8 = b2 := by
  apply BitVec.eq_of_toNat_eq
  rw [BitVec.extractLsb'_toNat, assemble_toNat, Nat.shiftRight_eq_div_pow]
  omega

theorem assemble_slice_third (b1 b2 b3 : Byte) : (assemble b1 b2 b3).extractLsb' 0 8 = b3 := by
  apply BitVec.eq_of_toNat_eq
  rw [BitVec.extractLsb'_toNat, assemble_toNat, Nat.shiftRight_eq_div_pow]
  omega

theorem symbol1_eq_slice (buf : G24) : symbol1 buf = buf.extractLsb' 18 6 := by
  ext i hi
  interval_cases i <;> simp [symbol1]

theorem symbol2_eq_slice (buf : G24) : symbol2 buf = buf.extractLsb' 12 6 := by
  ext i hi
  interval_cases i <;> simp [symbol2]

theorem symbol3_eq_slice (buf : G24) : symbol3 buf = buf.extractLsb' 6 6 := by
  ext i hi
  interval_cases i <;> simp [symbol3]

theorem symbol4_eq_slice (buf : G24) : symbol4 buf = buf.extractLsb' 0 6 := by
  ext i hi
  interval_cases i <;> simp [symbol4]

/-- Settles O9: the group is a number in base 256 whose digits are the cells, and each mask keeps just the bits of its
slice. -/
theorem regroupTakesTheFourSlices : Obligations.RegroupTakesTheFourSlices := fun b1 b2 b3 =>
  ⟨assemble_toNat b1 b2 b3, assemble_slice_first b1 b2 b3, assemble_slice_second b1 b2 b3,
    assemble_slice_third b1 b2 b3, symbol1_eq_slice _, symbol2_eq_slice _, symbol3_eq_slice _, symbol4_eq_slice _⟩

end Sys2Proof.Machine
end

section
/-! PROOFS. START, the completion step, and the events between them: an engine that is not BUSY has no step, and only
its own START word makes it BUSY (41_encoder.md R142, R143, R151, 42_decoder.md R172, R173, R181). -/

namespace Sys2Proof.Machine

/-! ### START -/

theorem raise_errorEntered (e : EngineId) (x : Condition) (s : State) : ErrorEntered e x s (raise e x s) :=
  ⟨_, _, _, clipLW_fits _ _, clipLW_fits _ _, rfl⟩

theorem exec_encode_of_not_busy {s : State} (hnb : s.enc.phase ≠ .busy) :
    exec .encode s = .next (start .enc (encStartError s.cfg s.enc.len) s) :=
  if_neg hnb

theorem exec_decode_of_not_busy {s : State} (hnb : s.dec.phase ≠ .busy) :
    exec .decode s = .next (start .dec (decStartError s.cfg s.dec.len) s) :=
  if_neg hnb

/-- ENCODE with room for the whole text begins the operation (41_encoder.md R143). -/
theorem exec_encode_begins {s : State} (hnb : s.enc.phase ≠ .busy)
    (hroom : fits s.cfg.outCapEnc (encTotal s.enc.len) = true) :
    exec .encode s = .next (s.setEngine .enc s.enc.begun) := by
  have hnone : encStartError s.cfg s.enc.len = none := by simp [encStartError, hroom]
  rw [exec_encode_of_not_busy hnb, hnone, start_none_eq]
  rfl

/-- DECODE of whole groups with room for the estimate begins the operation (42_decoder.md R172). -/
theorem exec_decode_begins {s : State} (hnb : s.dec.phase ≠ .busy) (haligned : s.dec.len % 4 = 0)
    (hroom : fits s.cfg.outCapDec (decEstimate s.dec.len) = true) :
    exec .decode s = .next (s.setEngine .dec s.dec.begun) := by
  have hnone : decStartError s.cfg s.dec.len = none := by simp [decStartError, haligned, hroom]
  rw [exec_decode_of_not_busy hnb, hnone, start_none_eq]
  rfl

/-- Settles O12: the error entry overwrites what an accepted START has cleared. -/
theorem encodeStartsTheEncoder : Obligations.EncodeStartsTheEncoder := by
  refine fun s hnb => ⟨exec_encode_begins hnb, fun hfull => ?_⟩
  have hfail : encStartError s.cfg s.enc.len = some .allocationFailure := by simp [encStartError, hfull]
  refine ⟨raise .enc .allocationFailure s, ?_, raise_errorEntered _ _ _⟩
  rw [exec_encode_of_not_busy hnb, hfail, start_some_eq]

/-! ### Turns that are no group step -/

section
variable {e : EngineId} {s t : State}

theorem engineStep_of_turnEffect {eff : TurnEffect} (heff : turnEffect s e = .ok eff) :
    engineStep e s = .next (eff.apply e s) :=
  engineStep_eq_next_iff.mpr ⟨eff, heff, rfl⟩

theorem engineStep_of_not_busy (hnb : (s.engine e).phase ≠ .busy) : engineStep e s = .next s :=
  engineStep_of_turnEffect (eff := .pass) (by simp [turnEffect, hnb])

theorem engineStep_complete (hb : (s.engine e).phase = .busy) (hend : (s.engine e).len ≤ (s.engine e).idx) :
    engineStep e s = .next (complete e s) :=
  engineStep_of_turnEffect (eff := .complete) (by simp [turnEffect, hb, Nat.not_lt.mpr hend])

theorem complete_completed (e : EngineId) (s : State) : Completed e s (complete e s) :=
  ⟨_, _, _, clipLW_fits _ _, clipLW_fits _ _, rfl⟩

/-! ### An empty message -/

/-- The operation on an empty message has its completion step only, and stores nothing. -/
theorem begun_empty_completes (hlen : (s.engine e).len = 0) :
    ((s.setEngine e (s.engine e).begun).engine e).phase = .busy ∧
    ∃ t, engineStep e (s.setEngine e (s.engine e).begun) = .next t ∧
      (t.engine e).phase = .done ∧ (t.engine e).olen = 0 ∧ (t.engine e).output = (s.engine e).output := by
  have hb : ((s.setEngine e (s.engine e).begun).engine e).phase = .busy := by simp [Engine.begun]
  exact ⟨hb, _, engineStep_complete hb (by simp [Engine.begun, hlen]), by simp, by simp [Engine.begun],
    by simp [Engine.begun]⟩

end

/-- Settles O59: `T(0)` and `E(0)` are 0, which fits any buffer. -/
theorem emptyMessageCompletesAtOnce : Obligations.EmptyMessageCompletesAtOnce := by
  refine ⟨fun s hnb hlen => ?_, fun s hnb hlen => ?_⟩
  · obtain ⟨hb, t, ht, hdone, holen, hout⟩ := begun_empty_completes (e := .enc) hlen
    have hroom : fits s.cfg.outCapEnc (encTotal s.enc.len) = true := by rw [hlen]; exact fits_zero _
    exact ⟨_, t, exec_encode_begins hnb hroom, hb, ht, hdone, holen, fun a => congrArg (·.read a) hout⟩
  · obtain ⟨hb, t, ht, hdone, holen, hout⟩ := begun_empty_completes (e := .dec) hlen
    have haligned : s.dec.len % 4 = 0 := by rw [hlen]
    have hroom : fits s.cfg.outCapDec (decEstimate s.dec.len) = true := by rw [hlen]; exact fits_zero _
    exact ⟨_, t, exec_decode_begins hnb haligned hroom, hb, ht, hdone, holen, fun a => congrArg (·.read a) hout⟩

/-! ### Only START makes an engine BUSY -/

section
variable {e : EngineId} {s t : State}

theorem execEncode_keepsEngine (he : e ≠ .enc) (ht : execEncode s = .next t) : KeepsEngine e s t := by
  unfold execEncode at ht
  split at ht <;> obtain rfl := Host.Outcome.next.inj ht
  · exact .refl e s
  · exact keepsEngine_start s _ he

theorem execDecode_keepsEngine (he : e ≠ .dec) (ht : execDecode s = .next t) : KeepsEngine e s t := by
  unfold execDecode at ht
  split at ht <;> obtain rfl := Host.Outcome.next.inj ht
  · exact .refl e s
  · exact keepsEngine_start s _ he

/-- A command word that is not the START word of an engine changes nothing of it. -/
theorem hostCmd_keepsEngine {w : Byte} (hw : w ≠ startWord e) (ht : hostCmd w s = .next t) : KeepsEngine e s t := by
  obtain ⟨hd, hrun⟩ | ⟨hd, hrun⟩ | ⟨-, hrun⟩ | ⟨-, hrun⟩ := hostCmd_cases w s <;> rw [hrun] at ht
  · exact execEncode_keepsEngine (fun he => hw (he ▸ (word_of_decodeCommand hd).symm)) ht
  · exact execDecode_keepsEngine (fun he => hw (he ▸ (word_of_decodeCommand hd).symm)) ht
  · exact Host.Outcome.next.inj ht ▸ .refl e s
  · exact Host.Outcome.next.inj ht ▸ .refl e s

theorem setEngine_keeps_not_busy {e' : EngineId} {x : Engine} (hnb : (s.engine e).phase ≠ .busy)
    (hx : x.phase = (s.engine e').phase) : ((s.setEngine e' x).engine e).phase ≠ .busy := by
  by_cases he : e = e'
  · subst he
    simpa [hx] using hnb
  · rwa [setEngine_engine_other s x he]

theorem hostAct_keeps_not_busy {a : HostAction} (hnb : (s.engine e).phase ≠ .busy) (ha : a ≠ .cmd (startWord e))
    (ht : hostAct a s = .next t) : (t.engine e).phase ≠ .busy := by
  cases a with
  | cmd w =>
    have hkeeps : KeepsEngine e s t := hostCmd_keepsEngine (fun hw => ha (hw ▸ rfl)) ht
    rwa [hkeeps.engine]
  | writeLen e' v =>
    obtain ⟨-, ⟨-, rfl⟩ | ⟨-, rfl⟩⟩ := hostWriteLen_next ht
    · exact hnb
    · exact setEngine_keeps_not_busy hnb rfl
  | writeIn e' i c =>
    obtain ⟨-, ⟨-, rfl⟩ | ⟨-, rfl⟩⟩ := hostWriteIn_next ht
    · exact hnb
    · exact setEngine_keeps_not_busy hnb rfl
  | readOut e' i =>
    obtain ⟨-, c, n, rfl, -⟩ := hostReadOut_next ht
    cases e <;> exact hnb
  | readStatus e' | readLen e' | readOlen e' =>
    obtain rfl := Host.Outcome.next.inj ht
    cases e <;> exact hnb
  | writeStatus e' w | writeOlen e' v => exact Host.Outcome.next.inj ht ▸ hnb
  | reset =>
    obtain rfl := Host.Outcome.next.inj ht
    cases e <;> simp

theorem runEvent_keeps_not_busy {ev : Event} (hnb : (s.engine e).phase ≠ .busy)
    (hev : ev ≠ .host (.cmd (startWord e))) (ht : runEvent ev s = .next t) : (t.engine e).phase ≠ .busy := by
  cases ev with
  | host a => exact hostAct_keeps_not_busy hnb (fun ha => hev (ha ▸ rfl)) ht
  | engine e' =>
    by_cases he : e = e'
    · subst he
      exact Host.Outcome.next.inj ((engineStep_of_not_busy hnb).symm.trans ht) ▸ hnb
    · rwa [(engineStep_keepsEngine he ht).engine]

/-- An engine that is not BUSY stays so through any events without its START word. -/
theorem runEvents_keeps_not_busy {evs : List Event} (hnb : (s.engine e).phase ≠ .busy)
    (hevs : ∀ ev ∈ evs, ev ≠ .host (.cmd (startWord e))) (ht : runEvents evs s = .next t) :
    (t.engine e).phase ≠ .busy := by
  induction evs generalizing s with
  | nil => exact Host.Outcome.next.inj ht ▸ hnb
  | cons ev evs ih =>
    obtain ⟨u, hu, ht⟩ := andThen_eq_next.mp ht
    obtain ⟨hev, hevs⟩ := List.forall_mem_cons.mp hevs
    exact ih (runEvent_keeps_not_busy hnb hev hu) hevs ht

end

/-- Settles O24: after its completion step the encoder is DONE, and only its START word would make it BUSY again. -/
theorem encoderCompletion : Obligations.EncoderCompletion := by
  refine fun s hb hend => ⟨⟨complete .enc s, engineStep_complete (e := .enc) hb hend, complete_completed .enc s,
    fun evs u hevs hu => ?_⟩, fun h => (h.encBusy hb).oidx_eq_encTotal hend⟩
  have hnb : u.enc.phase ≠ .busy := runEvents_keeps_not_busy (e := .enc) (by simp) hevs hu
  exact ⟨hnb, engineStep_of_not_busy (e := .enc) hnb⟩

/-! ### A BUSY engine moves -/

/-- A valid group contributes as many bytes as its last two cells say (42_decoder.md R180). -/
theorem length_of_decGroupOf {c1 c2 c3 c4 : Byte} {y : List Byte} (h : decGroupOf c1 c2 c3 c4 = some y) :
    y.length = groupWidth c3 c4 := by
  unfold decGroupOf at h
  split at h
  · split at h
    · rename_i hp3
      split at h
      · obtain rfl := Option.some.inj h
        simp [groupWidth, hp3]
      · cases h
    · rename_i hp3
      split at h
      · cases h
      · split at h
        · rename_i hp4
          obtain rfl := Option.some.inj h
          simp [groupWidth, hp3, hp4]
        · rename_i hp4
          split at h
          · cases h
          · obtain rfl := Option.some.inj h
            simp [groupWidth, hp3, hp4]
  · cases h

theorem groupWidth_le (c3 c4 : Byte) : groupWidth c3 c4 ≤ 3 := by
  unfold groupWidth
  split_ifs <;> decide

section
variable {s : State}

/-- The encoder's group lies inside both buffers. -/
theorem groupEffect_enc_of_inv (h : s.Inv) (hb : s.enc.phase = .busy) (hlt : s.enc.idx < s.enc.len) :
    groupEffect s .enc = .ok (.store 3 (encodedGroup s)) := by
  have hin : fits s.cfg.inCapEnc (min (s.enc.idx + 3) s.enc.len) = true :=
    fits_mono h.enc.lenInside (Nat.min_le_right _ _)
  have hbusy := h.encBusy hb
  have hout : fits s.cfg.outCapEnc (s.enc.oidx + 4) = true := by
    refine fits_mono hbusy.room ?_
    have hgroups := ceilDiv_bounds s.enc.len (b := 3) (by decide)
    rw [encTotal_eq, hbusy.oidxIs]
    omega
  simp [groupEffect, hin, hout]

/-- The decoder's group lies inside both buffers, or is invalid. -/
theorem groupEffect_dec_of_inv (h : s.Inv) (hb : s.dec.phase = .busy) (hlt : s.dec.idx < s.dec.len) :
    groupEffect s .dec = .ok .raise ∨ ∃ ys, groupEffect s .dec = .ok (.store 4 ys) := by
  obtain ⟨hidx, hlen, -, hoidx, hroom, -⟩ := h.decBusy hb
  have hin : fits s.cfg.inCapDec (s.dec.idx + 4) = true := fits_mono h.dec.lenInside (by omega)
  rw [groupEffect, if_pos hin]
  cases hgroup : decodedGroup s with
  | none => exact .inl rfl
  | some ys =>
    have hys : ys.length ≤ 3 := length_of_decGroupOf hgroup ▸ groupWidth_le _ _
    have hout : fits s.cfg.outCapDec (s.dec.oidx + ys.length) = true := by
      refine fits_mono hroom ?_
      have hestimate := decEstimate_bounds s.dec.len
      omega
    exact .inr ⟨ys, by simp [decodedEffect, hout]⟩

/-- The turn of a BUSY engine ends the operation or stores a group. -/
theorem turnEffect_of_inv {e : EngineId} (h : s.Inv) (hb : (s.engine e).phase = .busy) :
    turnEffect s e = .ok .complete ∨ turnEffect s e = .ok .raise ∨
      ∃ n bs, 0 < n ∧ turnEffect s e = .ok (.store n bs) := by
  rw [turnEffect, if_pos hb]
  split
  · rename_i hlt
    cases e with
    | enc => exact .inr (.inr ⟨3, _, by decide, groupEffect_enc_of_inv h hb hlt⟩)
    | dec =>
      obtain hraise | ⟨ys, hstore⟩ := groupEffect_dec_of_inv h hb hlt
      · exact .inr (.inl hraise)
      · exact .inr (.inr ⟨4, ys, by decide, hstore⟩)
  · exact .inl rfl

end

/-- Settles O28: a BUSY engine's turn completes or raises, after which it is not BUSY, or reads a group, which moves
IDX. -/
theorem engineStepsExactlyWhileBusy : Obligations.EngineStepsExactlyWhileBusy := by
  refine fun e s => ⟨engineStep_of_not_busy, fun h hb => ?_⟩
  obtain heff | heff | ⟨n, bs, hn, heff⟩ := turnEffect_of_inv h hb
  · exact ⟨_, engineStep_of_turnEffect heff, .inl (by simp [TurnEffect.apply])⟩
  · exact ⟨_, engineStep_of_turnEffect heff, .inl (by simp [TurnEffect.apply])⟩
  · exact ⟨_, engineStep_of_turnEffect heff, .inr (by simpa [TurnEffect.apply, Engine.stored] using hn)⟩

end Sys2Proof.Machine
end

section
/-! PROOFS. The text `enc(b)` in closed form (41_encoder.md R152, R154 to R156): its data characters, and the padding
after them. -/

namespace Sys2Proof.Machine

theorem alpha_ne_padCell (k : Index) : alpha k ≠ padCell := fun h => by
  have hinv := inv_alpha k
  rw [h, inv_padCell] at hinv
  cases hinv

section
variable {b : List Byte} {j : Nat}

theorem encCell_data (h : j < encData b.length) : ∃ k, encCell b j = alpha k :=
  ⟨_, if_pos h⟩

theorem encCell_padding (h : encData b.length ≤ j) : encCell b j = padCell :=
  if_neg (Nat.not_lt.mpr h)

/-- Padding is chosen by position only (R148), and no data character looks like it. -/
theorem encCell_eq_padCell_iff : encCell b j = padCell ↔ encData b.length ≤ j := by
  refine ⟨fun h => Nat.le_of_not_lt fun hlt => ?_, encCell_padding⟩
  obtain ⟨k, hk⟩ := encCell_data hlt
  exact alpha_ne_padCell k (hk.symm.trans h)

@[simp] theorem length_encText (b : List Byte) : (encText b).length = encTotal b.length := by simp [encText]

theorem encText_getElem?_eq_some_iff {c : Byte} :
    (encText b)[j]? = some c ↔ j < encTotal b.length ∧ encCell b j = c := by
  simp [encText, List.getElem?_eq_some_iff]

end

/-- The data characters come first, and the rest of the text is padding. -/
theorem encText_eq_append (b : List Byte) :
    encText b =
      (List.range (encData b.length)).map (encCell b) ++ List.replicate (encPad b.length) padCell := by
  rw [encText, ← encData_add_encPad, List.range_add, List.map_append, List.map_map]
  congr 1
  rw [List.eq_replicate_iff]
  simp +contextual [encCell_padding]

theorem count_padCell_encText (b : List Byte) : (encText b).count padCell = encPad b.length := by
  have hdata : padCell ∉ (List.range (encData b.length)).map (encCell b) := by
    simp [encCell_eq_padCell_iff]
  rw [encText_eq_append, List.count_append, List.count_replicate_self, List.count_eq_zero_of_not_mem hdata,
    Nat.zero_add]

/-- Settles O50: the text has `P(n)` cells of padding, at its end. -/
theorem encodedTextLaws : Obligations.EncodedTextLaws := by
  refine fun b => ⟨length_encText b, (count_padCell_encText b).trans (encPad_eq _), fun j => ?_, fun c hc hne => ?_⟩
  · rw [encText_getElem?_eq_some_iff, encCell_eq_padCell_iff, and_comm]
  · obtain ⟨j, -, rfl⟩ := List.mem_map.mp hc
    obtain ⟨k, hk⟩ := encCell_data (Nat.lt_of_not_le fun h => hne (encCell_padding h))
    exact ⟨k, hk ▸ inv_alpha k⟩

end Sys2Proof.Machine
end

section
/-! PROOFS. The encoder's group step, and the run from an accepted ENCODE to DONE (41_encoder.md R144 to R153): after
`k` group steps the first `4 * k` cells of OUT are those of `enc` of the message. -/

namespace Sys2Proof.Machine

/-! ### The message as the encoder reads it -/

@[simp] theorem length_message (e : EngineId) (s : State) : (message e s).length = (s.engine e).len := by
  simp [message]

/-- `MemReadZ` (20_memory.md R68) is the zero fill of the message. -/
theorem zeroFill_message (s : State) (i : Nat) : zeroFill (message .enc s) i = encInput s i := by
  by_cases hi : i < s.enc.len <;> simp [zeroFill, message, encInput, hi]

theorem message_congr {e : EngineId} {s s' : State} (hepoch : s'.epoch = s.epoch)
    (hlen : (s'.engine e).len = (s.engine e).len) (hinput : (s'.engine e).input = (s.engine e).input) :
    message e s' = message e s := by
  have hcell : inputCell e s' = inputCell e s := funext fun i => inputCell_congr hepoch (by rw [hinput])
  rw [message, message, hlen, hcell]

/-! ### The group step -/

/-- Slice `j` of the zero-filled group at input cell `i` (41_encoder.md R144 to R146). -/
def groupSlice (b : List Byte) (i j : Nat) : Index :=
  (assemble (zeroFill b i) (zeroFill b (i + 1)) (zeroFill b (i + 2))).extractLsb' (18 - 6 * j) 6

theorem encCells_encGroupOf (n o : Nat) (b1 b2 b3 : Byte) :
    encCells n o (encGroupOf b1 b2 b3) =
      (List.range 4).map fun j => selectCell n (o + j) ((assemble b1 b2 b3).extractLsb' (18 - 6 * j) 6) := by
  simp [encCells, encGroupOf, symbol1_eq_slice, symbol2_eq_slice, symbol3_eq_slice, symbol4_eq_slice,
    List.range_succ]

theorem encodedGroup_eq (s : State) :
    encodedGroup s =
      (List.range 4).map fun j =>
        selectCell s.enc.len (s.enc.oidx + j) (groupSlice (message .enc s) s.enc.idx j) := by
  simp only [encodedGroup, encCells_encGroupOf, groupSlice, zeroFill_message]

@[simp] theorem length_encodedGroup (s : State) : (encodedGroup s).length = 4 := rfl

theorem read_encodedGroup (s : State) {j : Nat} (hj : j < 4) :
    (s.enc.output.writeCells s.enc.oidx (encodedGroup s)).read (s.enc.oidx + j) =
      some (selectCell s.enc.len (s.enc.oidx + j) (groupSlice (message .enc s) s.enc.idx j)) := by
  rw [read_writeCells_inside _ _ _ (by simpa using hj)]
  simp [encodedGroup_eq]

/-- A group step inside both buffers stores the encoded group. -/
theorem engineStep_encodes {s : State} (hb : s.enc.phase = .busy) (hlt : s.enc.idx < s.enc.len)
    (hin : fits s.cfg.inCapEnc s.enc.len = true) (hout : fits s.cfg.outCapEnc (s.enc.oidx + 4) = true) :
    engineStep .enc s = .next (clearGroup .enc (s.setEngine .enc (s.enc.stored 3 (encodedGroup s)))) := by
  have hin' : fits s.cfg.inCapEnc (min (s.enc.idx + 3) s.enc.len) = true := fits_mono hin (Nat.min_le_right _ _)
  exact engineStep_of_turnEffect (eff := .store 3 (encodedGroup s))
    (by simp [turnEffect, groupEffect, hb, hlt, hin', hout])

/-- Settles O23: the four cells are read back, and the store writes no other. -/
theorem encoderGroupStep : Obligations.EncoderGroupStep := fun s hb hlt hin hout =>
  ⟨s.enc.output.writeCells s.enc.oidx (encodedGroup s), engineStep_encodes hb hlt hin hout,
    fun _ hj => read_encodedGroup s hj, fun _ ha => read_writeCells_outside _ _ _ ha⟩

/-! ### The run -/

theorem KeepsEngine.trans {e : EngineId} {s t u : State} (h : KeepsEngine e s t) (h' : KeepsEngine e t u) :
    KeepsEngine e s u :=
  ⟨h'.cfg.trans h.cfg, h'.epoch.trans h.epoch, h'.engine.trans h.engine⟩

theorem runEngine_succ {e : EngineId} {k : Nat} {s u v : State} (hu : runEngine e k s = .next u)
    (hv : engineStep e u = .next v) : runEngine e (k + 1) s = .next v := by
  induction k generalizing s with
  | zero =>
    obtain rfl := Host.Outcome.next.inj hu
    exact andThen_eq_next.mpr ⟨v, hv, rfl⟩
  | succ k ih =>
    obtain ⟨w, hw, hu⟩ := andThen_eq_next.mp hu
    exact andThen_eq_next.mpr ⟨w, hw, ih hu⟩

/-- Cell `j` of group `g` of `enc(b)` is what the group step at `IDX = 3 * g` stores (41_encoder.md R152). -/
theorem encCell_of_group (b : List Byte) (g : Nat) {j : Nat} (hj : j < 4) :
    encCell b (4 * g + j) = selectCell b.length (4 * g + j) (groupSlice b (3 * g) j) := by
  have hgroup : (4 * g + j) / 4 = g := by omega
  have hslice : (4 * g + j) % 4 = j := by omega
  simp [encCell, selectCell, groupSlice, hgroup, hslice]

/-- `u` is the state of the encoder's run from an accepted ENCODE in `s`, `k` group steps on. -/
structure EncProgress (s : State) (k : Nat) (u : State) : Prop where
  others : KeepsEngine .dec s u
  phase : u.enc.phase = .busy
  err : u.enc.err = none
  len : u.enc.len = s.enc.len
  input : u.enc.input = s.enc.input
  idx : u.enc.idx = 3 * k
  oidx : u.enc.oidx = 4 * k
  cells : ∀ j, j < 4 * k → u.enc.output.read j = some (encCell (message .enc s) j)
  rest : ∀ j, 4 * k ≤ j → u.enc.output.read j = s.enc.output.read j

theorem encProgress_begun (s : State) : EncProgress s 0 (s.setEngine .enc s.enc.begun) where
  others := keepsEngine_setEngine s _ nofun
  phase := rfl
  err := rfl
  len := rfl
  input := rfl
  idx := rfl
  oidx := rfl
  cells j hj := absurd hj (by simp)
  rest _ _ := rfl

section
variable {s u : State} {k : Nat}

/-- The group step of a run stores the next four cells of `enc` of the message. -/
theorem EncProgress.read_group (h : EncProgress s k u) {j : Nat} (hj : j < 4) :
    (u.enc.output.writeCells u.enc.oidx (encodedGroup u)).read (4 * k + j) =
      some (encCell (message .enc s) (4 * k + j)) := by
  have hmsg : message .enc u = message .enc s := message_congr h.others.epoch h.len h.input
  have hread := read_encodedGroup u hj
  rw [hmsg, h.idx, h.len] at hread
  rw [encCell_of_group _ _ hj, length_message, ← h.oidx]
  exact hread

/-- One group further. -/
theorem EncProgress.step (h : EncProgress s k u) (hk : k < ceilDiv s.enc.len 3)
    (hin : fits s.cfg.inCapEnc s.enc.len = true) (hroom : fits s.cfg.outCapEnc (encTotal s.enc.len) = true) :
    ∃ v, engineStep .enc u = .next v ∧ EncProgress s (k + 1) v := by
  have hgroups := ceilDiv_bounds s.enc.len (b := 3) (by decide)
  have hlt : u.enc.idx < u.enc.len := by rw [h.idx, h.len]; omega
  have hin' : fits u.cfg.inCapEnc u.enc.len = true := by rwa [h.others.cfg, h.len]
  have hout : fits u.cfg.outCapEnc (u.enc.oidx + 4) = true := by
    rw [h.others.cfg, h.oidx]
    exact fits_mono hroom (by rw [encTotal_eq]; omega)
  have hstep := engineStep_encodes h.phase hlt hin' hout
  exact ⟨_, hstep,
    { others := h.others.trans (engineStep_keepsEngine (e' := .enc) nofun hstep)
      phase := h.phase
      err := h.err
      len := h.len
      input := h.input
      idx := congrArg (· + 3) h.idx
      oidx := congrArg (· + 4) h.oidx
      cells := fun j hj => by
        by_cases hjk : j < 4 * k
        · rw [← h.cells j hjk]
          exact read_writeCells_outside _ _ _ (.inl (by rwa [h.oidx]))
        · obtain ⟨i, rfl⟩ := Nat.exists_eq_add_of_le (Nat.le_of_not_lt hjk)
          exact h.read_group (by omega)
      rest := fun j hj => by
        rw [← h.rest j (by omega)]
        exact read_writeCells_outside _ _ _ (.inr (by rw [h.oidx]; exact hj)) }⟩

theorem runEngine_encProgress (hin : fits s.cfg.inCapEnc s.enc.len = true)
    (hroom : fits s.cfg.outCapEnc (encTotal s.enc.len) = true) (hk : k ≤ ceilDiv s.enc.len 3) :
    ∃ u, runEngine .enc k (s.setEngine .enc s.enc.begun) = .next u ∧ EncProgress s k u := by
  induction k with
  | zero => exact ⟨_, rfl, encProgress_begun s⟩
  | succ k ih =>
    obtain ⟨u, hu, hprogress⟩ := ih (Nat.le_of_succ_le hk)
    obtain ⟨v, hv, hprogress'⟩ := hprogress.step hk hin hroom
    exact ⟨v, runEngine_succ hu hv, hprogress'⟩

end

/-- Settles O51: after the last group step the cells below `T(n)` are stored, and the completion step reports them. -/
theorem encoderRunComputesEnc : Obligations.EncoderRunComputesEnc := by
  intro s s0 hnb hin hroom hs0
  obtain rfl := Host.Outcome.next.inj ((exec_encode_begins hnb hroom).symm.trans hs0)
  refine ⟨fun k hk => ?_, ?_⟩
  · obtain ⟨u, hu, hprogress⟩ := runEngine_encProgress hin hroom hk
    exact ⟨u, hu, hprogress.phase, hprogress.idx⟩
  · obtain ⟨u, hu, h⟩ := runEngine_encProgress hin hroom (Nat.le_refl _)
    have hend : u.enc.len ≤ u.enc.idx := by
      rw [h.len, h.idx]
      exact (ceilDiv_bounds s.enc.len (by decide)).1
    refine ⟨_, runEngine_succ hu (engineStep_complete (e := .enc) h.phase hend), rfl, h.err, h.oidx, fun j hj => ?_,
      h.rest, h.len, h.input, h.others.engine⟩
    have htext : (encText (message .enc s))[j]? = some (encCell (message .enc s) j) :=
      encText_getElem?_eq_some_iff.mpr ⟨by simpa using hj, rfl⟩
    rw [htext]
    exact h.cells j hj

end Sys2Proof.Machine
end

section
/-! PROOFS. DECODE, and what the 65 characters do in the decoder's lanes (42_decoder.md R172, R175 to R179): an alphabet
character or late padding changes the group registers only, early padding is the error entry. -/

namespace Sys2Proof.Machine

/-! ### DECODE -/

/-- DECODE whose tests find a condition is the error entry. -/
theorem exec_decode_fails {s : State} {x : Condition} (hnb : s.dec.phase ≠ .busy)
    (hx : decStartError s.cfg s.dec.len = some x) : exec .decode s = .next (raise .dec x s) := by
  rw [exec_decode_of_not_busy hnb, hx, start_some_eq]

/-- Settles O13: the length test comes first, and the error entry overwrites what an accepted START has cleared. -/
theorem decodeStartsTheDecoder : Obligations.DecodeStartsTheDecoder := by
  refine fun s hnb => ⟨fun hlen => ?_, fun hlen hfull => ?_, exec_decode_begins hnb⟩
  · have hx : decStartError s.cfg s.dec.len = some .malformedLength := if_pos hlen
    exact ⟨_, exec_decode_fails hnb hx, raise_errorEntered _ _ _⟩
  · have hx : decStartError s.cfg s.dec.len = some .allocationFailure := by simp [decStartError, hlen, hfull]
    exact ⟨_, exec_decode_fails hnb hx, raise_errorEntered _ _ _⟩

/-! ### The characters in their lanes -/

/-- `SYM_k` inside a group step. -/
theorem exec_symbolOf_of_group {s : State} {g g' : DecGroup} {k : Index} (hg : s.decGroup = some g)
    (hform : formIndex k g = g') : exec (symbolOf k) s = .next { s with decGroup := some g' } := by
  rw [exec_symbolOf, takeSymbol_some hg, hform]

/-- Settles O18, lane by lane: the word is that of the shared table. -/
theorem symbolFormsItsIndex : Obligations.SymbolFormsItsIndex := by
  refine fun k s g hg => ⟨word_symbolOf k, fun hl => ?_, fun hl => ?_, fun hl => ?_, fun hl hp => ?_, fun hl hp => ?_⟩
  · exact exec_symbolOf_of_group hg (by simp [formIndex, hl])
  · exact exec_symbolOf_of_group hg (by simp [formIndex, hl])
  · exact exec_symbolOf_of_group hg (by simp [formIndex, hl])
  · exact exec_symbolOf_of_group hg (by simp [formIndex, hl, hp])
  · exact exec_symbolOf_of_group hg (by simp [formIndex, hl, hp])

/-- Settles O20: in these lanes padding is not early. -/
theorem paddingFormsNoIndex : Obligations.PaddingFormsNoIndex := by
  refine fun s g hg => ⟨fun hl => ?_, fun hl => ?_⟩
  · have hskip : skipIndex g = { g with lane := 4 } := by simp [skipIndex, hl]
    rw [exec_symPad, takePad_late hg (by simp [hl]), hskip]
  · have hskip : skipIndex g = { g with lane := 5 } := by simp [skipIndex, hl]
    rw [exec_symPad, takePad_late hg (by simp [hl]), hskip]

/-- Settles O21: early padding is the error entry. -/
theorem paddingInTheFirstTwoLanesRaises : Obligations.PaddingInTheFirstTwoLanesRaises := fun s _ hg hl =>
  ⟨raise .dec .invalidCharacter s, takePad_early hg hl, raise_errorEntered _ _ _⟩

/-- Everything a character can do: nothing outside a group step; inside one, change the group registers, or raise as
early padding. -/
theorem exec_character_next {i : Instr} {s t : State} (hi : i = .symPad ∨ ∃ k, i = symbolOf k)
    (ht : exec i s = .next t) :
    s.decGroup = none ∧ t = s ∨
    (∃ g g', s.decGroup = some g ∧ t = { s with decGroup := some g' }) ∨
    (∃ g, s.decGroup = some g ∧ (g.lane = 1 ∨ g.lane = 2) ∧ i = .symPad ∧ t = raise .dec .invalidCharacter s) := by
  cases hg : s.decGroup with
  | none =>
    refine .inl ⟨rfl, ?_⟩
    obtain rfl | ⟨k, rfl⟩ := hi
    · exact Host.Outcome.next.inj (ht.symm.trans (takePad_none hg))
    · exact Host.Outcome.next.inj (ht.symm.trans ((exec_symbolOf k s).trans (takeSymbol_none hg)))
  | some g =>
    refine .inr ?_
    obtain rfl | ⟨k, rfl⟩ := hi
    · by_cases hl : g.lane = 1 ∨ g.lane = 2
      · exact .inr ⟨g, rfl, hl, rfl, Host.Outcome.next.inj (ht.symm.trans (takePad_early hg hl))⟩
      · exact .inl ⟨g, _, rfl, Host.Outcome.next.inj (ht.symm.trans (takePad_late hg hl))⟩
    · exact .inl ⟨g, _, rfl, Host.Outcome.next.inj (ht.symm.trans (exec_symbolOf_of_group hg rfl))⟩

/-- Settles O22: the error entry keeps everything but the decoder's own registers and OUT, and is excluded where the
decoder is claimed unchanged. -/
theorem characterFrame : Obligations.CharacterFrame := by
  intro i s t hi ht
  obtain ⟨-, rfl⟩ | ⟨g, g', hg, rfl⟩ | ⟨g, hg, hlane, hpad, rfl⟩ := exec_character_next hi ht
  · simp
  · simp [hg]
  · have hlate : ¬(i ≠ .symPad ∨ ∀ g, s.decGroup = some g → g.lane ≠ 1 ∧ g.lane ≠ 2) := by
      rintro (hne | hlate)
      · exact hne hpad
      · exact not_or.mpr (hlate g hg) hlane
    exact ⟨rfl, rfl, rfl, rfl, rfl, rfl, rfl, fun _ => rfl, rfl, by simp [hg], fun h => absurd h hlate⟩

end Sys2Proof.Machine
end

section
/-! PROOFS. The decoder's bytes and group step (42_decoder.md R173 to R182, R185): the slices of the encoder's group,
put side by side, are the group again; and a turn on a group of four cells is `decgroup` of them. -/

namespace Sys2Proof.Machine

/-! ### The bytes -/

/-- A group is its four slices side by side. -/
theorem append_slices (buf : G24) :
    buf.extractLsb' 18 6 ++ buf.extractLsb' 12 6 ++ buf.extractLsb' 6 6 ++ buf.extractLsb' 0 6 = buf := by
  ext b hb
  simp only [BitVec.getElem_append, BitVec.getElem_extractLsb']
  interval_cases b <;> simp

theorem append_symbols (b1 b2 b3 : Byte) :
    (encGroupOf b1 b2 b3).s1 ++ (encGroupOf b1 b2 b3).s2 ++ (encGroupOf b1 b2 b3).s3 ++ (encGroupOf b1 b2 b3).s4 =
      assemble b1 b2 b3 := by
  rw [← append_slices (assemble b1 b2 b3), ← symbol1_eq_slice, ← symbol2_eq_slice, ← symbol3_eq_slice,
    ← symbol4_eq_slice]
  rfl

/-- Settles O11: the bytes are slices of the four indices side by side, and those are the group. -/
theorem bytesInvertRegrouping : Obligations.BytesInvertRegrouping := by
  intro b1 b2 b3 g
  refine ⟨?_, ?_, ?_⟩
  · rw [byte1_eq_slice g.s1 g.s2 g.s3 g.s4, append_symbols, assemble_slice_first]
  · rw [byte2_eq_slice g.s1 g.s2 g.s3 g.s4, append_symbols, assemble_slice_second]
  · rw [byte3_eq_slice g.s1 g.s2 g.s3 g.s4, append_symbols, assemble_slice_third]

/-! ### `decgroup` -/

section
variable {c1 c2 c3 c4 : Byte}

theorem decGroupOf_eq_none_iff :
    decGroupOf c1 c2 c3 c4 = none ↔
      inv c1 = none ∨ inv c2 = none ∨ inSet65 c3 = false ∨ inSet65 c4 = false := by
  rw [← Option.not_isSome_iff_eq_none, decGroupOf_isSome_iff]
  simp only [not_and_or, Bool.not_eq_true, Option.isSome_eq_false_iff, Option.isNone_iff_eq_none]

variable {i1 i2 i3 i4 : Index}

theorem decGroupOf_one (h1 : inv c1 = some i1) (h2 : inv c2 = some i2) (h3 : isPad c3 = true)
    (h4 : inSet65 c4 = true) : decGroupOf c1 c2 c3 c4 = some [byte1 i1 i2] := by
  simp [decGroupOf, h1, h2, h3, h4]

theorem decGroupOf_two (h1 : inv c1 = some i1) (h2 : inv c2 = some i2) (h3 : inv c3 = some i3)
    (h4 : isPad c4 = true) : decGroupOf c1 c2 c3 c4 = some [byte1 i1 i2, byte2 i2 i3] := by
  simp [decGroupOf, h1, h2, isPad_eq_false_of_inv h3, h3, h4]

theorem decGroupOf_three (h1 : inv c1 = some i1) (h2 : inv c2 = some i2) (h3 : inv c3 = some i3)
    (h4 : inv c4 = some i4) : decGroupOf c1 c2 c3 c4 = some [byte1 i1 i2, byte2 i2 i3, byte3 i3 i4] := by
  simp [decGroupOf, h1, h2, isPad_eq_false_of_inv h3, h3, isPad_eq_false_of_inv h4, h4]

end

/-- Settles O26: neither an invalid cell nor padding has an index. -/
theorem decodedGroupByCases : Obligations.DecodedGroupByCases := by
  refine fun c1 c2 c3 c4 => ⟨fun hbad => decGroupOf_eq_none_iff.mpr ?_, fun hpad => decGroupOf_eq_none_iff.mpr ?_,
    fun i1 i2 h1 h2 => ⟨decGroupOf_one h1 h2, fun i3 h3 =>
      ⟨decGroupOf_two h1 h2 h3, fun i4 h4 => decGroupOf_three h1 h2 h3 h4⟩⟩⟩
  · obtain hbad | hbad | hbad := hbad
    · exact .inl (inSet65_eq_false_iff.mp hbad).1
    · exact .inr (.inl (inSet65_eq_false_iff.mp hbad).1)
    · exact .inr (.inr hbad)
  · obtain hpad | hpad := hpad
    · exact .inl (inv_eq_none_of_isPad hpad)
    · exact .inr (.inl (inv_eq_none_of_isPad hpad))

/-! ### The decoder's turn -/

section
variable {s : State} (hb : s.dec.phase = .busy) (hlt : s.dec.idx < s.dec.len)
  (hin : fits s.cfg.inCapDec (s.dec.idx + 4) = true)
include hb hlt hin

theorem turnEffect_decodes : turnEffect s .dec = decodedEffect s (decodedGroup s) := by
  simp [turnEffect, groupEffect, hb, hlt, hin]

/-- An Invalid group is the error entry. -/
theorem engineStep_of_invalid_group (hgroup : decodedGroup s = none) :
    engineStep .dec s = .next (raise .dec .invalidCharacter s) :=
  engineStep_of_turnEffect (eff := .raise) (by rw [turnEffect_decodes hb hlt hin, hgroup]; rfl)

/-- Any other group is stored, with room for it. -/
theorem engineStep_decodes {y : List Byte} (hgroup : decodedGroup s = some y)
    (hout : fits s.cfg.outCapDec (s.dec.oidx + y.length) = true) :
    engineStep .dec s = .next (clearGroup .dec (s.setEngine .dec (s.dec.stored 4 y))) :=
  engineStep_of_turnEffect (eff := .store 4 y)
    (by rw [turnEffect_decodes hb hlt hin, hgroup, decodedEffect, if_pos hout])

end

/-- Settles O27: the bytes are read back, and the store writes no other cell. -/
theorem decoderGroupStep : Obligations.DecoderGroupStep := by
  refine fun s hb hlt hin => ⟨fun hgroup => ?_, fun y hgroup => ⟨length_of_decGroupOf hgroup, fun hout => ?_⟩⟩
  · exact ⟨_, engineStep_of_invalid_group hb hlt hin hgroup, raise_errorEntered _ _ _⟩
  · refine ⟨_, engineStep_decodes hb hlt hin hgroup hout, fun j hj => ?_,
      fun a ha => read_writeCells_outside _ _ _ ha⟩
    rw [List.getElem?_eq_getElem hj]
    exact read_writeCells_inside _ _ _ hj

/-- Settles O25: with no group left the turn is the completion step. -/
theorem decoderCompletion : Obligations.DecoderCompletion := fun s hb hend =>
  ⟨complete .dec s, engineStep_complete (e := .dec) hb hend, complete_completed .dec s⟩

/-- A cell that decodes to an instruction is run as that instruction. -/
theorem runLane_eq_laneThen {c : Byte} {i : Instr} (h : decodeCell c = .ok i) : runLane c = laneThen i := by
  funext s
  cases hg : s.decGroup with
  | none => simp only [runLane, laneThen, hg]
  | some g => simp only [runLane, laneThen, hg, h]

/-- Settles O43: the fetch opens the group, so that the first lane runs its instruction. -/
theorem stepRunsTheFourCharacters : Obligations.StepRunsTheFourCharacters := by
  intro s rest i1 i2 i3 i4 hagenda hb hlt hin h1 h2 h3 h4
  have hstep : step s = decGroupStep { s with agenda := rest } := by
    simp [step, hagenda, runEvent, engineStep, decStep, hb, hlt]
  rw [hstep, decGroupStep, if_pos hin]
  show andThen (andThen (andThen (andThen (runLane (inputCell .dec s s.dec.idx) _)
    (runLane (inputCell .dec s (s.dec.idx + 1)))) (runLane (inputCell .dec s (s.dec.idx + 2))))
    (runLane (inputCell .dec s (s.dec.idx + 3)))) decStore = _
  rw [runLane_eq_laneThen h1, runLane_eq_laneThen h2, runLane_eq_laneThen h3, runLane_eq_laneThen h4]
  rfl

/-! ### A placed character -/

/-- The state in which the next step finds a placed character, its turn taken from the agenda (log entry 12). -/
def State.withLastCell (s : State) (c : Byte) : State :=
  s.setEngine .dec { s.dec.begun with len := 4, input := s.dec.input.writeCells 0 [0x41, 0x41, 0x41, c] }

/-- A cell that has been written is read back. -/
theorem inputCell_of_read {e : EngineId} {s : State} {i : Nat} {c : Byte}
    (h : (s.engine e).input.read i = some c) : inputCell e s i = c := by
  simp [inputCell, h]

theorem step_withFetchWord_character {s : State} {nbits w : Nat} {i : Instr}
    (h : decodeCell (firstWord nbits w) = .ok i) :
    step (s.withFetchWord nbits w) = engineStep .dec (s.withLastCell (firstWord nbits w)) := by
  rw [State.withFetchWord, h]
  rfl

theorem decodedGroup_withLastCell (s : State) (c : Byte) :
    decodedGroup (s.withLastCell c) = decGroupOf 0x41 0x41 0x41 c := by
  have hcell (j : Nat) (hj : j < 4) : inputCell .dec (s.withLastCell c) j = [0x41, 0x41, 0x41, c][j] := by
    have hread := read_writeCells_inside s.dec.input 0 [0x41, 0x41, 0x41, c] (j := j) hj
    rw [Nat.zero_add] at hread
    exact inputCell_of_read hread
  show decGroupOf (inputCell .dec (s.withLastCell c) 0) (inputCell .dec (s.withLastCell c) 1)
    (inputCell .dec (s.withLastCell c) 2) (inputCell .dec (s.withLastCell c) 3) = _
  rw [hcell 0 (by decide), hcell 1 (by decide), hcell 2 (by decide), hcell 3 (by decide)]
  rfl

/-- The group of a placed character is stored from output cell 0 on. -/
theorem step_of_placed_character {s : State} {nbits w : Nat} {i : Instr} {y : List Byte}
    (h : decodeCell (firstWord nbits w) = .ok i) (hgroup : decGroupOf 0x41 0x41 0x41 (firstWord nbits w) = some y)
    (hin : fits s.cfg.inCapDec 4 = true) (hout : fits s.cfg.outCapDec y.length = true) :
    ∃ t, step (s.withFetchWord nbits w) = .next t ∧ t.agenda = s.agenda ∧ t.dec.idx = 4 ∧ t.dec.oidx = y.length ∧
      t.dec.output = s.dec.output.writeCells 0 y := by
  have hout' : fits s.cfg.outCapDec (0 + y.length) = true := by rwa [Nat.zero_add]
  have hstep := engineStep_decodes (s := s.withLastCell (firstWord nbits w)) rfl (by decide : 0 < 4) hin
    ((decodedGroup_withLastCell s _).trans hgroup) hout'
  exact ⟨_, (step_withFetchWord_character h).trans hstep, rfl, rfl, Nat.zero_add _, rfl⟩

theorem byte3_zero (k : Index) : byte3 0 k = k.setWidth 8 := by
  simp [byte3]

/-- Settles O44: `A` has index 0, so that the third byte of the group is the character's index. -/
theorem stepRunsThePlacedCharacter : Obligations.StepRunsThePlacedCharacter := by
  have hA : inv 0x41 = some 0 := rfl
  refine fun s nbits w hin hout => ⟨fun k hk => ?_, fun hpad => ?_⟩
  · obtain ⟨t, ht, hagenda, hidx, hoidx, houtput⟩ :=
      step_of_placed_character (decodeCell_of_inv hk) (decGroupOf_three hA hA hA hk) hin hout
    refine ⟨t, ht, hagenda, hidx, hoidx, ?_⟩
    rw [houtput, ← byte3_zero k]
    exact read_writeCells_inside _ 0 _ (j := 2) (by simp)
  · obtain ⟨t, ht, hagenda, hidx, hoidx, -⟩ :=
      step_of_placed_character (decodeCell_of_isPad hpad) (decGroupOf_two hA hA hA hpad) hin
        (fits_mono hout (by decide))
    exact ⟨t, ht, hagenda, hidx, hoidx⟩

end Sys2Proof.Machine
end

section
/-! PROOFS. The run from an accepted DECODE to DONE or ERROR (42_decoder.md R172 to R184): after `k` group steps OUT
begins with the bytes of the first `k` groups, and the groups to come decide how the run ends. -/

namespace Sys2Proof.Machine

/-! ### The text as the decoder reads it -/

/-- A text that is left over after whole groups of the message begins with the next four cells. -/
theorem drop_message_group {e : EngineId} {s : State} {i : Nat} (hi : i + 4 ≤ (s.engine e).len) :
    (message e s).drop i =
      inputCell e s i :: inputCell e s (i + 1) :: inputCell e s (i + 2) :: inputCell e s (i + 3) ::
        (message e s).drop (i + 4) := by
  have hlen := length_message e s
  have hcell (j : Nat) (hj : j < (message e s).length) : (message e s)[j] = inputCell e s j := by simp [message]
  rw [List.drop_eq_getElem_cons (by omega), List.drop_eq_getElem_cons (by omega),
    List.drop_eq_getElem_cons (by omega), List.drop_eq_getElem_cons (by omega), hcell, hcell, hcell, hcell]

/-- `dec` of a message that START refuses is START's condition (42_decoder.md R172, R183). -/
theorem decText_of_startError {cfg : Config} {t : List Byte} {x : Condition}
    (hx : decStartError cfg t.length = some x) : decText cfg.outCapDec t = .error x := by
  obtain ⟨h, hlen⟩ | ⟨h, -⟩ | ⟨h, hlen, hfull⟩ := decStartError_cases cfg t.length <;>
    obtain h := h.symm.trans hx
  · obtain rfl := Option.some.inj h
    simp [decText, hlen]
  · cases h
  · obtain rfl := Option.some.inj h
    simp [decText, hlen, hfull]

theorem decText_of_invalid_group {cap : Option Nat} {t : List Byte} (haligned : t.length % 4 = 0)
    (hroom : fits cap (decEstimate t.length) = true) (hgroups : decGroups t = none) :
    decText cap t = .error .invalidCharacter := by
  simp [decText, haligned, hroom, hgroups]

theorem runEngine_of_not_busy {e : EngineId} {s : State} (hnb : (s.engine e).phase ≠ .busy) (k : Nat) :
    runEngine e k s = .next s := by
  induction k with
  | zero => rfl
  | succ k ih => rw [runEngine, engineStep_of_not_busy hnb, andThen_next, ih]

/-! ### The run -/

/-- `u` is the state of the decoder's run from an accepted DECODE in `s`, `k` valid groups with the bytes `y` on. -/
structure DecProgress (s : State) (k : Nat) (y : List Byte) (u : State) : Prop where
  others : KeepsEngine .enc s u
  phase : u.dec.phase = .busy
  err : u.dec.err = none
  len : u.dec.len = s.dec.len
  input : u.dec.input = s.dec.input
  idx : u.dec.idx = 4 * k
  oidx : u.dec.oidx = y.length
  bytes : y.length ≤ 3 * k
  cells : ∀ j, j < y.length → u.dec.output.read j = y[j]?
  rest : ∀ j, y.length ≤ j → u.dec.output.read j = s.dec.output.read j

theorem decProgress_begun (s : State) : DecProgress s 0 [] (s.setEngine .dec s.dec.begun) where
  others := keepsEngine_setEngine s _ nofun
  phase := rfl
  err := rfl
  len := rfl
  input := rfl
  idx := rfl
  oidx := rfl
  bytes := Nat.zero_le _
  cells j hj := absurd hj (Nat.not_lt_zero j)
  rest _ _ := rfl

/-- How a decoder's run from `u` ends that is `k` groups with the bytes `y` into the message of `s`, when the groups to
come decode to `result`: with all bytes stored and the completion step to come, or in the error entry. -/
def RunEnds (s : State) (y : List Byte) (v : State) : Option (List Byte) → Prop
  | some ys => DecProgress s (s.dec.len / 4) (y ++ ys) v
  | none => ∃ k y' u, DecProgress s k y' u ∧ v = raise .dec .invalidCharacter u

/-- The bytes of a group may be counted to those stored or to those to come. -/
theorem RunEnds.append_group {s v : State} {y bs : List Byte} {result : Option (List Byte)}
    (h : RunEnds s (y ++ bs) v result) : RunEnds s y v (result.map (bs ++ ·)) := by
  cases result with
  | none => exact h
  | some ys => rwa [RunEnds, List.append_assoc] at h

section
variable {s u : State} {k : Nat} {y : List Byte}

/-- One valid group further. -/
theorem DecProgress.stored (h : DecProgress s k y u) {bs : List Byte} (hbs : bs.length ≤ 3)
    (hstep : engineStep .dec u = .next (clearGroup .dec (u.setEngine .dec (u.dec.stored 4 bs)))) :
    DecProgress s (k + 1) (y ++ bs) (clearGroup .dec (u.setEngine .dec (u.dec.stored 4 bs))) where
  others := h.others.trans (engineStep_keepsEngine (e' := .dec) nofun hstep)
  phase := h.phase
  err := h.err
  len := h.len
  input := h.input
  idx := congrArg (· + 4) h.idx
  oidx := by
    rw [List.length_append, ← h.oidx]
    rfl
  bytes := by
    have := h.bytes
    rw [List.length_append]
    omega
  cells j hj := by
    show (u.dec.output.writeCells u.dec.oidx bs).read j = _
    rw [h.oidx]
    by_cases hjy : j < y.length
    · rw [List.getElem?_append_left hjy, ← h.cells j hjy]
      exact read_writeCells_outside _ _ _ (.inl hjy)
    · obtain ⟨i, rfl⟩ := Nat.exists_eq_add_of_le (Nat.le_of_not_lt hjy)
      have hi : i < bs.length := by simpa using hj
      rw [List.getElem?_append_right (Nat.le_add_right _ _), Nat.add_sub_cancel_left, List.getElem?_eq_getElem hi]
      exact read_writeCells_inside _ _ _ hi
  rest j hj := by
    rw [List.length_append] at hj
    rw [← h.rest j (by omega)]
    exact read_writeCells_outside _ _ _ (.inr (by rwa [h.oidx]))

/-- A run decodes the text that is left over by its next group. -/
theorem DecProgress.decGroups_drop (h : DecProgress s k y u) (hk : k < s.dec.len / 4) :
    decGroups ((message .dec s).drop (4 * k)) =
      (decodedGroup u).bind fun bs =>
        (decGroups ((message .dec s).drop (4 * (k + 1)))).map (bs ++ ·) := by
  have hcell (i : Nat) : inputCell .dec u i = inputCell .dec s i :=
    inputCell_congr h.others.epoch (congrArg (·.read i) h.input)
  have hgroup : decodedGroup u = decGroupOf (inputCell .dec s (4 * k)) (inputCell .dec s (4 * k + 1))
      (inputCell .dec s (4 * k + 2)) (inputCell .dec s (4 * k + 3)) := by
    simp only [decodedGroup, h.idx, hcell]
  rw [drop_message_group (e := .dec) (show 4 * k + 4 ≤ s.dec.len by omega), decGroups, hgroup]
  cases decGroupOf _ _ _ _ <;> cases decGroups ((message .dec s).drop (4 * (k + 1))) <;> rfl

variable (haligned : s.dec.len % 4 = 0) (hin : fits s.cfg.inCapDec s.dec.len = true)
  (hroom : fits s.cfg.outCapDec (decEstimate s.dec.len) = true)
include haligned hin hroom

/-- The next turn of a run decodes the next four cells of the message. -/
theorem DecProgress.step (h : DecProgress s k y u) (hk : k < s.dec.len / 4) :
    decodedGroup u = none ∧ engineStep .dec u = .next (raise .dec .invalidCharacter u) ∨
    ∃ bs v, decodedGroup u = some bs ∧ engineStep .dec u = .next v ∧ DecProgress s (k + 1) (y ++ bs) v := by
  have hlt : u.dec.idx < u.dec.len := by rw [h.idx, h.len]; omega
  have hin' : fits u.cfg.inCapDec (u.dec.idx + 4) = true := by
    rw [h.others.cfg, h.idx]
    exact fits_mono hin (by omega)
  cases hgroup : decodedGroup u with
  | none => exact .inl ⟨rfl, engineStep_of_invalid_group h.phase hlt hin' hgroup⟩
  | some bs =>
    have hbs : bs.length ≤ 3 := length_of_decGroupOf hgroup ▸ groupWidth_le _ _
    have hout : fits u.cfg.outCapDec (u.dec.oidx + bs.length) = true := by
      rw [h.others.cfg, h.oidx]
      have hbytes := h.bytes
      have hestimate := decEstimate_bounds s.dec.len
      exact fits_mono hroom (by omega)
    have hstep := engineStep_decodes h.phase hlt hin' hgroup hout
    exact .inr ⟨bs, _, rfl, hstep, h.stored hbs hstep⟩

/-- The groups that are left decide how the run ends. -/
theorem DecProgress.run (n : Nat) (h : DecProgress s k y u) (hn : k + n = s.dec.len / 4) :
    ∃ v, runEngine .dec n u = .next v ∧ RunEnds s y v (decGroups ((message .dec s).drop (4 * k))) := by
  induction n generalizing k y u with
  | zero =>
    have hend : (message .dec s).drop (4 * k) = [] := by
      rw [List.drop_eq_nil_iff, length_message, engine_dec]
      omega
    refine ⟨u, rfl, ?_⟩
    rw [hend, decGroups, RunEnds, List.append_nil, ← hn]
    exact h
  | succ n ih =>
    rw [h.decGroups_drop (by omega)]
    obtain ⟨hgroup, hstep⟩ | ⟨bs, w, hgroup, hstep, hw⟩ := h.step haligned hin hroom (by omega)
    · rw [hgroup]
      refine ⟨_, ?_, k, y, u, h, rfl⟩
      rw [runEngine, hstep]
      exact runEngine_of_not_busy (by simp) n
    · obtain ⟨v, hv, hends⟩ := ih hw (by omega)
      rw [runEngine, hstep, hgroup]
      exact ⟨v, hv, hends.append_group⟩

/-- The group steps of the whole message. -/
theorem runEngine_decodes :
    ∃ v, runEngine .dec (s.dec.len / 4) (s.setEngine .dec s.dec.begun) = .next v ∧
      RunEnds s [] v (decGroups (message .dec s)) :=
  (decProgress_begun s).run haligned hin hroom _ (Nat.zero_add _)

end

/-- Settles O52: START refuses the message, or its groups decide how the run ends. -/
theorem decoderRunComputesDec : Obligations.DecoderRunComputesDec := by
  intro s s0 hnb hin hs0
  have hmsg : (message .dec s).length = s.dec.len := length_message .dec s
  obtain ⟨hx, -⟩ | ⟨-, haligned, hroom⟩ | ⟨hx, -⟩ := decStartError_cases s.cfg s.dec.len
  · obtain rfl := Host.Outcome.next.inj ((exec_decode_fails hnb hx).symm.trans hs0)
    rw [decText_of_startError (hmsg ▸ hx)]
    exact raise_errorEntered _ _ _
  · obtain rfl := Host.Outcome.next.inj ((exec_decode_begins hnb haligned hroom).symm.trans hs0)
    obtain ⟨v, hv, hends⟩ := runEngine_decodes haligned hin hroom
    cases hgroups : decGroups (message .dec s) with
    | none =>
      rw [hgroups] at hends
      obtain ⟨k, y, u, h, rfl⟩ := hends
      rw [decText_of_invalid_group (hmsg ▸ haligned) (hmsg ▸ hroom) hgroups]
      exact ⟨rfl, _, hv, rfl, rfl, rfl, h.len, h.input, h.others.engine⟩
    | some y =>
      rw [hgroups] at hends
      have hend : v.dec.len ≤ v.dec.idx := by rw [hends.len, hends.idx]; omega
      rw [decText_eq_ok_iff.mpr ⟨hmsg ▸ haligned, hmsg ▸ hroom, hgroups⟩]
      exact ⟨_, runEngine_succ hv (engineStep_complete (e := .dec) hends.phase hend), rfl, hends.err, hends.oidx,
        hends.cells, hends.rest, hends.len, hends.input, hends.others.engine⟩
  · obtain rfl := Host.Outcome.next.inj ((exec_decode_fails hnb hx).symm.trans hs0)
    rw [decText_of_startError (hmsg ▸ hx)]
    exact raise_errorEntered _ _ _

end Sys2Proof.Machine
end

section
/-! PROOFS. `dec` inverts `enc` (42_decoder.md R185, R186), group by group: a group of `enc(b)` decodes to as many of
its three bytes as the message still has. -/

namespace Sys2Proof.Machine

/-! ### `enc` group by group -/

theorem encTotal_eq_add {n : Nat} (hn : n ≠ 0) : encTotal n = 4 + encTotal (n - 3) := by
  simp only [encTotal, ceilDiv]
  omega

/-- One group fewer leaves four data characters fewer, or none. -/
theorem lt_encData_iff {n j : Nat} : 4 + j < encData n ↔ j < encData (n - 3) := by
  simp only [encData, ceilDiv]
  omega

theorem zeroFill_drop (b : List Byte) (n i : Nat) : zeroFill (b.drop n) i = zeroFill b (n + i) := by
  simp only [zeroFill, List.getElem?_drop]

/-- After its first group `enc(b)` is `enc` of the rest of the message. -/
theorem encCell_drop (b : List Byte) (j : Nat) : encCell (b.drop 3) j = encCell b (4 + j) := by
  have hgroup : (4 + j) / 4 = 1 + j / 4 := by omega
  have hslice : (4 + j) % 4 = j % 4 := by omega
  simp only [encCell, zeroFill_drop, hgroup, hslice, List.length_drop, lt_encData_iff, Nat.mul_add, Nat.mul_one,
    Nat.add_assoc]

/-- The first group of `enc(b)` is what the encoder stores for the first three bytes (41_encoder.md R144 to R148). -/
def firstGroup (b : List Byte) : List Byte :=
  encCells b.length 0 (encGroupOf (zeroFill b 0) (zeroFill b 1) (zeroFill b 2))

theorem firstGroup_eq (b : List Byte) : firstGroup b = (List.range 4).map (encCell b) := by
  rw [firstGroup, encCells_encGroupOf]
  refine List.map_congr_left fun j hj => ?_
  have hcell := encCell_of_group b 0 (List.mem_range.mp hj)
  rw [Nat.mul_zero, Nat.zero_add] at hcell
  rw [hcell, Nat.zero_add]
  rfl

theorem encText_eq_firstGroup_append {b : List Byte} (hb : b ≠ []) :
    encText b = firstGroup b ++ encText (b.drop 3) := by
  have hn : b.length ≠ 0 := mt List.length_eq_zero_iff.mp hb
  rw [encText, encTotal_eq_add hn, List.range_add, List.map_append, List.map_map, firstGroup_eq, encText,
    List.length_drop]
  congr 1
  exact List.map_congr_left fun j _ => (encCell_drop b j).symm

/-! ### `dec` group by group -/

theorem inv_selectCell_data {n j : Nat} (h : j < encData n) (k : Index) : inv (selectCell n j k) = some k := by
  rw [selectCell, if_pos h, inv_alpha]

theorem isPad_selectCell_padding {n j : Nat} (h : encData n ≤ j) (k : Index) : isPad (selectCell n j k) = true := by
  rw [selectCell, if_neg (Nat.not_lt.mpr h), isPad_iff]

theorem inSet65_of_isPad {c : Byte} (h : isPad c = true) : inSet65 c = true := by simp [inSet65, h]

/-- With `n` bytes left a group decodes to the first `n` of its three (42_decoder.md R185). -/
theorem decGroupOf_encCells {n : Nat} (hn : n ≠ 0) (b1 b2 b3 : Byte) :
    let g := encGroupOf b1 b2 b3
    decGroupOf (selectCell n 0 g.s1) (selectCell n 1 g.s2) (selectCell n 2 g.s3) (selectCell n 3 g.s4) =
      some ([b1, b2, b3].take n) := by
  intro g
  obtain ⟨h1, h2, h3⟩ := bytesInvertRegrouping b1 b2 b3
  have hdata := encData_bounds n
  have hs1 := inv_selectCell_data (n := n) (j := 0) (by omega) g.s1
  have hs2 := inv_selectCell_data (n := n) (j := 1) (by omega) g.s2
  obtain rfl | rfl | hmany : n = 1 ∨ n = 2 ∨ 3 ≤ n := by omega
  · have hs3 := isPad_selectCell_padding (n := 1) (j := 2) (by decide) g.s3
    have hs4 := isPad_selectCell_padding (n := 1) (j := 3) (by decide) g.s4
    rw [decGroupOf_one hs1 hs2 hs3 (inSet65_of_isPad hs4), h1]
    rfl
  · have hs3 := inv_selectCell_data (n := 2) (j := 2) (by decide) g.s3
    have hs4 := isPad_selectCell_padding (n := 2) (j := 3) (by decide) g.s4
    rw [decGroupOf_two hs1 hs2 hs3 hs4, h1, h2]
    rfl
  · have hs3 := inv_selectCell_data (n := n) (j := 2) (by omega) g.s3
    have hs4 := inv_selectCell_data (n := n) (j := 3) (by omega) g.s4
    rw [decGroupOf_three hs1 hs2 hs3 hs4, h1, h2, h3, List.take_of_length_le hmany]

/-- The zero-filled group begins with the bytes of the message. -/
theorem take_zeroFill (b : List Byte) :
    [zeroFill b 0, zeroFill b 1, zeroFill b 2].take b.length = b.take 3 := by
  match b with
  | [] | [_] | [_, _] => rfl
  | _ :: _ :: _ :: _ => simp [zeroFill]

theorem decGroups_firstGroup_append {b : List Byte} (hb : b ≠ []) (t : List Byte) :
    decGroups (firstGroup b ++ t) = (decGroups t).map (b.take 3 ++ ·) := by
  have hgroup := decGroupOf_encCells (mt List.length_eq_zero_iff.mp hb) (zeroFill b 0) (zeroFill b 1) (zeroFill b 2)
  rw [take_zeroFill] at hgroup
  simp only [firstGroup, encCells, List.cons_append, List.nil_append, decGroups, Nat.zero_add, hgroup]
  cases decGroups t <;> rfl

theorem decGroups_encText (b : List Byte) : decGroups (encText b) = some b := by
  by_cases hb : b = []
  · subst hb
    rfl
  · have ih := decGroups_encText (b.drop 3)
    rw [encText_eq_firstGroup_append hb, decGroups_firstGroup_append hb, ih, Option.map_some, List.take_append_drop]
termination_by b.length
decreasing_by
  have := List.length_pos_iff.mpr hb
  rw [List.length_drop]
  omega

theorem decEstimate_encTotal (n : Nat) : decEstimate (encTotal n) = 3 * ceilDiv n 3 := by
  have hestimate := decEstimate_bounds (encTotal n)
  have htotal := encTotal_eq n
  omega

/-- Settles O55: the text has whole groups, its estimate is the stated capacity, and its groups decode to the
message. -/
theorem decodingInvertsEncoding : Obligations.DecodingInvertsEncoding := by
  intro b cap hroom
  rw [decText_eq_ok_iff, length_encText, decEstimate_encTotal]
  exact ⟨Nat.mul_mod_right 4 _, hroom, decGroups_encText b⟩

/-- Settles O58: `dec` evaluates on each of the five texts. -/
theorem nonCanonicalTextsAreAccepted : Obligations.NonCanonicalTextsAreAccepted := ⟨rfl, rfl, rfl, rfl, rfl⟩

end Sys2Proof.Machine
end

section
/-! PROOFS. The host's calls (43_control.md R211 to R213): writing a message and its length leaves a state whose message
it is, the START word and the waiting run the operation, and the host reads the result. -/

namespace Sys2Proof.Machine

/-! ### Writing a message -/

section
variable {e : EngineId} {s : State}

/-- The state after the host has written `m` into `IN.e` from cell 0 on, and its length. -/
def State.withMessage (s : State) (e : EngineId) (m : List Byte) : State :=
  s.setEngine e { s.engine e with len := m.length, input := (s.engine e).input.writeCells 0 m }

theorem setEngine_setEngine (s : State) (e : EngineId) (x x' : Engine) :
    (s.setEngine e x).setEngine e x' = s.setEngine e x' := by
  cases e <;> rfl

theorem setEngine_engine (s : State) (e : EngineId) : s.setEngine e (s.engine e) = s := by
  cases e <;> rfl

theorem hostWriteIn_of_not_busy {i : Nat} (c : Byte) (hnb : (s.engine e).phase ≠ .busy)
    (hi : fits (inCap s.cfg e) (i + 1) = true) :
    hostWriteIn e i c s = .next (s.withInput e ((s.engine e).input.write i c)) := by
  rw [hostWriteIn, if_pos hi, if_neg hnb]
  rfl

theorem hostWriteLen_of_not_busy {v : Nat} (hnb : (s.engine e).phase ≠ .busy) (hv : fits (inCap s.cfg e) v = true) :
    hostWriteLen e v s = .next (s.setEngine e { s.engine e with len := v }) := by
  rw [hostWriteLen, if_pos hv, if_neg hnb]

theorem runEvents_writeMessage {m : List Byte} {i : Nat} (hnb : (s.engine e).phase ≠ .busy)
    (hin : fits (inCap s.cfg e) (i + m.length) = true) :
    runEvents (writeMessage e i m) s = .next (s.withInput e ((s.engine e).input.writeCells i m)) := by
  induction m generalizing i s with
  | nil => exact congrArg Host.Outcome.next (setEngine_engine s e).symm
  | cons c m ih =>
    rw [List.length_cons] at hin
    have hwrite := hostWriteIn_of_not_busy (i := i) c hnb (fits_mono hin (by omega))
    have hrest := ih (i := i + 1) (s := s.withInput e ((s.engine e).input.write i c))
      (by simpa [State.withInput] using hnb)
      (by rw [State.withInput, setEngine_cfg]; exact fits_mono hin (by omega))
    rw [writeMessage, runEvents, runEvent, hostAct, hwrite, andThen_next, hrest]
    simp only [State.withInput, setEngine_setEngine, setEngine_engine_same, Memory.writeCells]

theorem runEvents_replicate_engine (e : EngineId) (k : Nat) (s : State) :
    runEvents (List.replicate k (.engine e)) s = runEngine e k s := by
  induction k generalizing s with
  | zero => rfl
  | succ k ih =>
    rw [List.replicate_succ, runEvents, runEngine]
    exact congrArg _ (funext ih)

/-- A call to an engine that is not BUSY: START on the written message, and the engine's turns. -/
theorem runEvents_callEvents {m : List Byte} (hnb : (s.engine e).phase ≠ .busy)
    (hin : fits (inCap s.cfg e) m.length = true) :
    runEvents (callEvents e m) s =
      andThen (hostCmd (startWord e) (s.withMessage e m)) (runEngine e (stepCount e m.length)) := by
  have hwrite := runEvents_writeMessage (m := m) (i := 0) hnb (by rwa [Nat.zero_add])
  have hlen := hostWriteLen_of_not_busy (e := e) (v := m.length)
    (s := s.withInput e ((s.engine e).input.writeCells 0 m)) (by simpa [State.withInput] using hnb)
    (by rwa [State.withInput, setEngine_cfg])
  have hmsg : (s.withInput e ((s.engine e).input.writeCells 0 m)).setEngine e
      { (s.withInput e ((s.engine e).input.writeCells 0 m)).engine e with len := m.length } = s.withMessage e m := by
    simp only [State.withInput, State.withMessage, setEngine_setEngine, setEngine_engine_same]
  rw [hmsg] at hlen
  simp only [callEvents, runEvents_append, hwrite, andThen_next, runEvents, runEvent, hostAct, hlen, andThen_assoc]
  exact congrArg _ (funext (runEvents_replicate_engine e _))

@[simp] theorem withMessage_cfg (s : State) (e : EngineId) (m : List Byte) : (s.withMessage e m).cfg = s.cfg :=
  setEngine_cfg s e _

@[simp] theorem withMessage_len (s : State) (e : EngineId) (m : List Byte) :
    ((s.withMessage e m).engine e).len = m.length := by
  simp [State.withMessage]

@[simp] theorem withMessage_phase (s : State) (e : EngineId) (m : List Byte) :
    ((s.withMessage e m).engine e).phase = (s.engine e).phase := by
  simp [State.withMessage]

theorem keepsEngine_withMessage {e' : EngineId} (s : State) (m : List Byte) (h : e' ≠ e) :
    KeepsEngine e' s (s.withMessage e m) :=
  keepsEngine_setEngine s _ h

/-- The written cells are the message. -/
theorem message_withMessage (s : State) (e : EngineId) (m : List Byte) : message e (s.withMessage e m) = m := by
  refine List.ext_getElem (by simp) fun j _ hj => ?_
  have hread := read_writeCells_inside (s.engine e).input 0 m hj
  rw [Nat.zero_add] at hread
  have hcell : inputCell e (s.withMessage e m) j = m[j] :=
    inputCell_of_read (by simpa [State.withMessage] using hread)
  simpa [message] using hcell

end

/-! ### Reading the result -/

/-- The cells of a list that are all read are read as a list. -/
theorem mapM_eq_some_of_map_eq {f : Nat → Option Byte} {l : List Nat} {y : List Byte} (h : l.map f = y.map some) :
    l.mapM f = some y :=
  calc l.mapM f = (l.map f).mapM id := (List.mapM_map (f := f) (g := id)).symm
    _ = (y.map some).mapM id := by rw [h]
    _ = y.mapM some := List.mapM_map
    _ = some (y.map id) := List.mapM_pure
    _ = some y := by rw [List.map_id]

theorem callResult_of_done {e : EngineId} {t : State} {y : List Byte} (hdone : (t.engine e).phase = .done)
    (holen : (t.engine e).olen = y.length) (hread : ∀ j, j < y.length → (t.engine e).output.read j = y[j]?) :
    callResult e t = some (.ok y) := by
  have hcells : (List.range y.length).map (fun j => validCell e j t) = y.map some := by
    refine List.ext_getElem (by simp) fun j hj _ => ?_
    have hjy : j < y.length := by simpa using hj
    simp [validCell, hdone, holen, hjy, hread j hjy]
  have hresult : readCells e t = some y := by
    rw [readCells, holen]
    exact mapM_eq_some_of_map_eq hcells
  simp only [callResult, hdone, hresult, Option.map_some]

/-! ### The calls -/

theorem runEngine_keepsEngine {e e' : EngineId} {k : Nat} {s t : State} (h : e ≠ e')
    (ht : runEngine e' k s = .next t) : KeepsEngine e s t := by
  induction k generalizing s with
  | zero => exact Host.Outcome.next.inj ht ▸ .refl e s
  | succ k ih =>
    obtain ⟨u, hu, ht⟩ := andThen_eq_next.mp ht
    exact (engineStep_keepsEngine h hu).trans (ih ht)

section
variable {s : State}

/-- The call `encode(b)`, with room for the text, returns `enc(b)` and leaves the decoder alone. -/
theorem encodeCall_returns {b : List Byte} (hnb : s.enc.phase ≠ .busy)
    (hin : fits s.cfg.inCapEnc b.length = true) (hroom : fits s.cfg.outCapEnc (encTotal b.length) = true) :
    ∃ t, runEvents (callEvents .enc b) s = .next t ∧ KeepsEngine .dec s t ∧
      callResult .enc t = some (.ok (encText b)) := by
  have hlen : (s.withMessage .enc b).enc.len = b.length := withMessage_len s .enc b
  have hnb' : (s.withMessage .enc b).enc.phase ≠ .busy := hnb
  have hroom' : fits (s.withMessage .enc b).cfg.outCapEnc (encTotal (s.withMessage .enc b).enc.len) = true := hroom
  have hstart := exec_encode_begins hnb' hroom'
  obtain ⟨-, t, ht, hdone, -, holen, hread, -⟩ := encoderRunComputesEnc (s.withMessage .enc b) _ hnb' hin hroom' hstart
  rw [message_withMessage, hlen] at hread
  refine ⟨t, ?_, ?_, callResult_of_done hdone (by rw [length_encText]; exact holen) (by simpa using hread)⟩
  · rw [runEvents_callEvents (e := .enc) hnb hin, hostCmd_of_ok (i := .encode) rfl, hstart]
    exact ht
  · exact (keepsEngine_withMessage (e := .enc) s b (by decide)).trans
      ((keepsEngine_setEngine _ _ (by decide)).trans (runEngine_keepsEngine (by decide) ht))

/-- The call `decode(t)` of an accepted text returns its bytes. -/
theorem decodeCall_returns {m y : List Byte} (hnb : s.dec.phase ≠ .busy)
    (hin : fits s.cfg.inCapDec m.length = true) (hy : decText s.cfg.outCapDec m = .ok y) :
    ∃ t, runEvents (callEvents .dec m) s = .next t ∧ callResult .dec t = some (.ok y) := by
  have hnb' : (s.withMessage .dec m).dec.phase ≠ .busy := hnb
  obtain ⟨haligned, hroom, -⟩ := decText_eq_ok_iff.mp hy
  have hstart := exec_decode_begins (s := s.withMessage .dec m) hnb' haligned hroom
  have hrun := decoderRunComputesDec (s.withMessage .dec m) _ hnb' hin hstart
  rw [message_withMessage, withMessage_cfg, hy] at hrun
  obtain ⟨t, ht, hdone, -, holen, hread, -⟩ := hrun
  have hcount : stepCount .dec m.length = m.length / 4 + 1 := by
    simp only [stepCount, ceilDiv, groupIn]
    omega
  refine ⟨t, ?_, callResult_of_done hdone holen hread⟩
  rw [runEvents_callEvents (e := .dec) hnb hin, hostCmd_of_ok (i := .decode) rfl, hstart, hcount]
  exact ht

end

/-- Settles O56: the encoder's call leaves the decoder quiescent, and the decoder accepts every text of `enc`. -/
theorem roundTripThroughBothEngines : Obligations.RoundTripThroughBothEngines := by
  intro b s _ hquiet hinEnc houtEnc hinDec houtDec
  obtain ⟨hencIdle, hdecIdle⟩ := hquiet
  obtain ⟨t, ht, hkeeps, htext⟩ := encodeCall_returns hencIdle hinEnc houtEnc
  have hdec : t.dec = s.dec := hkeeps.engine
  have hinDec' : fits t.cfg.inCapDec (encText b).length = true := by rwa [hkeeps.cfg, length_encText]
  have hroom : fits t.cfg.outCapDec (3 * ceilDiv b.length 3) = true := by rwa [hkeeps.cfg]
  obtain ⟨u, hu, hresult⟩ :=
    decodeCall_returns (by rwa [hdec]) hinDec' (decodingInvertsEncoding b _ hroom)
  simp only [roundTrip, ht, htext, hu, hresult]

end Sys2Proof.Machine
end

section
/-! PROOFS. What the calls return, refused and failing ones included (43_control.md R211, R212): START refuses the
message, or the run that it begins stores a result or meets an invalid group. -/

namespace Sys2Proof.Machine

/-! ### The actions of a call -/

theorem startWord_ne {e e' : EngineId} (h : e ≠ e') : startWord e ≠ startWord e' := by
  revert h
  cases e <;> cases e' <;> decide

theorem callResult_of_error {e : EngineId} {t : State} {x : Condition} (hphase : (t.engine e).phase = .error)
    (herr : (t.engine e).err = some x) : callResult e t = some (.error x) := by
  simp only [callResult, hphase, herr]

section
variable {e : EngineId} {s t : State} {m : List Byte} (hnb : (s.engine e).phase ≠ .busy)
  (hin : fits (inCap s.cfg e) m.length = true)
include hnb hin

/-- No action of a call, and no turn it waits for, touches the other engine. -/
theorem callEvents_keepsEngine {e' : EngineId} (he : e' ≠ e) (ht : runEvents (callEvents e m) s = .next t) :
    KeepsEngine e' s t := by
  rw [runEvents_callEvents hnb hin] at ht
  obtain ⟨u, hstart, hrun⟩ := andThen_eq_next.mp ht
  exact (keepsEngine_withMessage s m he).trans
    ((hostCmd_keepsEngine (startWord_ne he.symm) hstart).trans (runEngine_keepsEngine he hrun))

/-- After a START that raises, the turns of the waiting change nothing. -/
theorem callEvents_refused {x : Condition}
    (hstart : hostCmd (startWord e) (s.withMessage e m) = .next (raise e x (s.withMessage e m))) :
    ∃ t, runEvents (callEvents e m) s = .next t ∧ callResult e t = some (.error x) := by
  refine ⟨raise e x (s.withMessage e m), ?_, callResult_of_error (by simp) (by simp)⟩
  rw [runEvents_callEvents hnb hin, hstart, andThen_next]
  exact runEngine_of_not_busy (by simp) _

end

/-! ### Calls that fail -/

/-- ENCODE whose test finds a condition is the error entry. -/
theorem exec_encode_fails {s : State} {x : Condition} (hnb : s.enc.phase ≠ .busy)
    (hx : encStartError s.cfg s.enc.len = some x) : exec .encode s = .next (raise .enc x s) := by
  rw [exec_encode_of_not_busy hnb, hx, start_some_eq]

section
variable {s : State} {m : List Byte}

theorem encodeCall_refused {x : Condition} (hnb : s.enc.phase ≠ .busy) (hin : fits s.cfg.inCapEnc m.length = true)
    (hx : encStartError s.cfg m.length = some x) :
    ∃ t, runEvents (callEvents .enc m) s = .next t ∧ callResult .enc t = some (.error x) :=
  callEvents_refused (e := .enc) hnb hin (exec_encode_fails (s := s.withMessage .enc m) hnb hx)

theorem decodeCall_refused {x : Condition} (hnb : s.dec.phase ≠ .busy) (hin : fits s.cfg.inCapDec m.length = true)
    (hx : decStartError s.cfg m.length = some x) :
    ∃ t, runEvents (callEvents .dec m) s = .next t ∧ callResult .dec t = some (decText s.cfg.outCapDec m) := by
  rw [decText_of_startError hx]
  exact callEvents_refused (e := .dec) hnb hin (exec_decode_fails (s := s.withMessage .dec m) hnb hx)

/-- Group steps of whole groups, and the completion step (70_reset_and_hazards.md R272). -/
theorem stepCount_dec {n : Nat} (haligned : n % 4 = 0) : stepCount .dec n = n / 4 + 1 := by
  simp only [stepCount, ceilDiv, groupIn]
  omega

/-- A text with an invalid group ends the operation in a group step; the last turn of the waiting changes nothing. -/
theorem decodeCall_of_invalid_group (hnb : s.dec.phase ≠ .busy) (hin : fits s.cfg.inCapDec m.length = true)
    (haligned : m.length % 4 = 0) (hroom : fits s.cfg.outCapDec (decEstimate m.length) = true)
    (hgroups : decGroups m = none) :
    ∃ t, runEvents (callEvents .dec m) s = .next t ∧ callResult .dec t = some (.error .invalidCharacter) := by
  have hstart := exec_decode_begins (s := s.withMessage .dec m) hnb haligned hroom
  have hrun := decoderRunComputesDec (s.withMessage .dec m) _ hnb hin hstart
  rw [message_withMessage, withMessage_cfg, decText_of_invalid_group haligned hroom hgroups] at hrun
  obtain ⟨-, t, ht, hphase, herr, -⟩ := hrun
  have hlast : engineStep .dec t = .next t := engineStep_of_not_busy (by simp [hphase])
  refine ⟨t, ?_, callResult_of_error hphase herr⟩
  rw [runEvents_callEvents (e := .dec) hnb hin, hostCmd_of_ok (i := .decode) rfl, hstart, stepCount_dec haligned]
  exact runEngine_succ ht hlast

/-! ### All calls -/

theorem encodeCall_returns_or_fails (hnb : s.enc.phase ≠ .busy) (hin : fits s.cfg.inCapEnc m.length = true) :
    ∃ t, runEvents (callEvents .enc m) s = .next t ∧
      callResult .enc t = some (if fits s.cfg.outCapEnc (encTotal m.length) then .ok (encText m)
        else .error .allocationFailure) := by
  obtain ⟨-, hroom⟩ | ⟨hx, hfull⟩ := encStartError_cases s.cfg m.length
  · obtain ⟨t, ht, -, hresult⟩ := encodeCall_returns hnb hin hroom
    exact ⟨t, ht, by rw [hresult, if_pos hroom]⟩
  · rw [hfull]
    exact encodeCall_refused hnb hin hx

theorem decodeCall_returns_decText (hnb : s.dec.phase ≠ .busy) (hin : fits s.cfg.inCapDec m.length = true) :
    ∃ t, runEvents (callEvents .dec m) s = .next t ∧ callResult .dec t = some (decText s.cfg.outCapDec m) := by
  obtain ⟨hx, -⟩ | ⟨-, haligned, hroom⟩ | ⟨hx, -⟩ := decStartError_cases s.cfg m.length
  · exact decodeCall_refused hnb hin hx
  · cases hgroups : decGroups m with
    | none =>
      rw [decText_of_invalid_group haligned hroom hgroups]
      exact decodeCall_of_invalid_group hnb hin haligned hroom hgroups
    | some y =>
      have hy := decText_eq_ok_iff.mpr ⟨haligned, hroom, hgroups⟩
      rw [hy]
      exact decodeCall_returns hnb hin hy
  · exact decodeCall_refused hnb hin hx

end

/-- Settles O54: by what START finds in the message, and by its groups; neither call touches the other engine. -/
theorem callsReturnEncAndDec : Obligations.CallsReturnEncAndDec := by
  refine ⟨fun b s _ hnb hin => ?_, fun m s _ hnb hin => ?_⟩
  · obtain ⟨t, ht, hresult⟩ := encodeCall_returns_or_fails hnb hin
    exact ⟨t, ht, (callEvents_keepsEngine (e := .enc) hnb hin (e' := .dec) nofun ht).engine, hresult⟩
  · obtain ⟨t, ht, hresult⟩ := decodeCall_returns_decText hnb hin
    exact ⟨t, ht, (callEvents_keepsEngine (e := .dec) hnb hin (e' := .enc) nofun ht).engine, hresult⟩

end Sys2Proof.Machine
end

section
/-! PROOFS. The command words (43_control.md R201 to R206): a START does nothing, begins the operation or takes the
error entry; NOP and the reserved words do nothing. -/

namespace Sys2Proof.Machine

/-! ### Commands that change nothing -/

theorem exec_encode_of_busy {s : State} (hb : s.enc.phase = .busy) : exec .encode s = .next s := if_pos hb

theorem exec_decode_of_busy {s : State} (hb : s.dec.phase = .busy) : exec .decode s = .next s := if_pos hb

/-- Settles O14: a START tests for BUSY first, in either engine. -/
theorem startWhileBusyIsLost : Obligations.StartWhileBusyIsLost := fun _ => ⟨exec_encode_of_busy, exec_decode_of_busy⟩

/-- Settles O15, by evaluation. -/
theorem nopChangesNothing : Obligations.NopChangesNothing := ⟨rfl, rfl, fun _ _ => rfl⟩

/-- A word whose bits 7:2 are not zero is 0x04 or above (43_control.md R205). -/
theorem reserved_of_rsv_ne_zero {w : Byte} (h : w.extractLsb' 2 6 ≠ 0#6) : 0x04 ≤ w := by
  obtain rfl | rfl | rfl | rfl | hw := command_cases w
  case inr.inr.inr.inr => exact hw
  all_goals exact absurd rfl h

/-- Settles O16: such a word is no command. -/
theorem reservedCommandIsIgnored : Obligations.ReservedCommandIsIgnored := fun _ s h =>
  hostCmd_of_reserved (reserved_of_rsv_ne_zero h) s

/-! ### The frame of the commands -/

/-- Everything START can do to an engine that is not BUSY. -/
theorem start_cases (e : EngineId) (problem : Option Condition) (s : State) :
    start e problem s = s.setEngine e (s.engine e).begun ∨ ∃ x, start e problem s = raise e x s := by
  cases problem with
  | none => exact .inl (start_none_eq e s)
  | some x => exact .inr ⟨x, start_some_eq e x s⟩

section
variable {s t : State}

/-- Everything ENCODE can do. -/
theorem exec_encode_next (h : exec .encode s = .next t) :
    t = s ∨ t = s.setEngine .enc s.enc.begun ∨ ∃ x, t = raise .enc x s := by
  by_cases hb : s.enc.phase = .busy
  · exact .inl (Host.Outcome.next.inj ((exec_encode_of_busy hb).symm.trans h)).symm
  · obtain rfl := Host.Outcome.next.inj ((exec_encode_of_not_busy hb).symm.trans h)
    exact .inr (start_cases .enc _ s)

/-- Everything DECODE can do. -/
theorem exec_decode_next (h : exec .decode s = .next t) :
    t = s ∨ t = s.setEngine .dec s.dec.begun ∨ ∃ x, t = raise .dec x s := by
  by_cases hb : s.dec.phase = .busy
  · exact .inl (Host.Outcome.next.inj ((exec_decode_of_busy hb).symm.trans h)).symm
  · obtain rfl := Host.Outcome.next.inj ((exec_decode_of_not_busy hb).symm.trans h)
    exact .inr (start_cases .dec _ s)

end

/-- Settles O17: beginning an operation touches no buffer, and the error entry, which empties OUT, leaves the engine in
ERROR. -/
theorem commandFrame : Obligations.CommandFrame := by
  refine fun s t => ⟨fun eng h => (Host.Outcome.next.inj h).symm, fun h => ?_, fun h => ?_⟩
  · obtain rfl | rfl | ⟨x, rfl⟩ := exec_encode_next h <;> simp [Engine.begun]
  · obtain rfl | rfl | ⟨x, rfl⟩ := exec_decode_next h <;> simp [Engine.begun]

/-! ### The step that runs a command -/

theorem step_of_agenda {s : State} {ev : Event} {rest : List Event} (h : s.agenda = ev :: rest) :
    step s = runEvent ev { s with agenda := rest } := by
  simp only [step, h]

/-- No command word is a character (30_encoding.md R91, R94; log entry 14). -/
theorem decodeCell_of_command {w : Byte} {i : Instr} (h : decodeCommand w = .ok i) :
    ∃ x, decodeCell w = .error x := by
  obtain rfl | rfl | rfl | rfl | hw := command_cases w
  case inr.inr.inr.inr => rw [decodeCommand_of_reserved hw] at h; cases h
  all_goals exact ⟨_, rfl⟩

/-- A command word is placed on the command port (log entry 12). -/
theorem withFetchWord_of_command {nbits w : Nat} {i : Instr} (h : decodeCommand (firstWord nbits w) = .ok i)
    (s : State) : s.withFetchWord nbits w = placeCommand (firstWord nbits w) s := by
  obtain ⟨x, hx⟩ := decodeCell_of_command h
  simp only [State.withFetchWord, hx]

/-- Settles O42: the host action at the head of the agenda runs what its word decodes to. -/
theorem stepRunsTheCommand : Obligations.StepRunsTheCommand := by
  refine ⟨fun s w i rest hagenda h => ?_, fun s nbits w i h => ?_⟩
  · rw [step_of_agenda hagenda]
    exact hostCmd_of_ok h _
  · rw [withFetchWord_of_command h, step_of_agenda rfl]
    exact hostCmd_of_ok h s

end Sys2Proof.Machine
end

section
/-! PROOFS. The host's writes and reads (43_control.md R200, R207 to R210), and what a step can answer: a host action
that exists has a next state and one that does not is refused, an engine's turn is never refused, and under the
invariant it does not fault. -/

namespace Sys2Proof.Machine

/-! ### Writes -/

section
variable {e : EngineId} {s : State} {i v : Nat}

theorem hostWriteLen_of_busy (hb : (s.engine e).phase = .busy) (hv : fits (inCap s.cfg e) v = true) :
    hostWriteLen e v s = .next s := by
  rw [hostWriteLen, if_pos hv, if_pos hb]

theorem hostWriteLen_of_not_fits (hv : fits (inCap s.cfg e) v = false) :
    hostWriteLen e v s = .refused (.lenBeyondCapacity e v) := by
  simp [hostWriteLen, hv]

theorem hostWriteIn_of_busy (c : Byte) (hb : (s.engine e).phase = .busy) (hi : fits (inCap s.cfg e) (i + 1) = true) :
    hostWriteIn e i c s = .next s := by
  rw [hostWriteIn, if_pos hi, if_pos hb]

theorem hostWriteIn_of_not_fits (c : Byte) (hi : fits (inCap s.cfg e) (i + 1) = false) :
    hostWriteIn e i c s = .refused (.inIndexBeyondCapacity e i) := by
  simp [hostWriteIn, hi]

end

/-- Settles O36, by the two tests of the action. -/
theorem writeLenSetsTheLength : Obligations.WriteLenSetsTheLength := fun _ _ _ =>
  ⟨fun hv hnb => hostWriteLen_of_not_busy hnb hv, fun hv hb => hostWriteLen_of_busy hb hv, hostWriteLen_of_not_fits⟩

/-- Settles O37: the new input buffer is the old one with one cell written. -/
theorem writeInSetsOneCell : Obligations.WriteInSetsOneCell := fun _ i c _ hi =>
  ⟨fun hb => hostWriteIn_of_busy c hb hi, fun hnb =>
    ⟨_, hostWriteIn_of_not_busy c hnb hi, read_write_same _ i c, fun _ ha => read_write_other _ c ha⟩⟩

/-! ### Reads -/

/-- The fields of a STATUS word (30_encoding.md R92). -/
theorem status_fields (err phase : BitVec 2) :
    (0#4 ++ err ++ phase).extractLsb' 4 4 = 0#4 ∧ (0#4 ++ err ++ phase).extractLsb' 2 2 = err ∧
      (0#4 ++ err ++ phase).extractLsb' 0 2 = phase := by
  revert err phase
  decide

/-- Settles O33: the fields of the word are the codes of ERR and STATE. -/
theorem readStatusIsExact : Obligations.ReadStatusIsExact := by
  intro e s
  obtain ⟨hzero, herr, hphase⟩ := status_fields (errCode (s.engine e).err) (phaseCode (s.engine e).phase)
  refine ⟨statusWord (s.engine e), rfl, hzero, herr.trans ?_, hphase.trans ?_⟩
  · cases (s.engine e).err with
    | none => rfl
    | some x => cases x <;> rfl
  · cases (s.engine e).phase <;> rfl

section
variable {e : EngineId} {s : State} {i : Nat}

theorem hostReadOut_of_valid {c : Byte} (hi : fits (outCap s.cfg e) (i + 1) = true) (hc : validCell e i s = some c) :
    hostReadOut e i s = .next (respond (.cell e i c) s) := by
  simp only [hostReadOut, if_pos hi, hc]

/-- Inside the buffer a read returns some value. -/
theorem hostReadOut_of_fits (hi : fits (outCap s.cfg e) (i + 1) = true) :
    ∃ c n, hostReadOut e i s = .next { s with responses := .cell e i c :: s.responses, reads := n } := by
  cases hc : validCell e i s with
  | some c => exact ⟨c, s.reads, hostReadOut_of_valid hi hc⟩
  | none => exact ⟨_, _, by simp only [hostReadOut, if_pos hi, hc]; rfl⟩

theorem hostReadOut_of_not_fits (hi : fits (outCap s.cfg e) (i + 1) = false) :
    hostReadOut e i s = .refused (.outIndexBeyondCapacity e i) := by
  simp [hostReadOut, hi]

/-- In DONE each cell below OLEN lies inside OUT and has been written (20_memory.md R73). -/
theorem EngineInv.result_cell {cfg : Config} {x : Engine} (h : EngineInv cfg e x) (hdone : x.phase = .done)
    (hi : i < x.olen) : fits (outCap cfg e) (i + 1) = true ∧ ∃ c, x.output.read i = some c :=
  ⟨fits_mono (h.resultInside hdone) hi, Option.isSome_iff_exists.mp (h.resultWritten hdone i hi)⟩

end

/-- Settles O35: under the invariant a cell of the result has a value, which is the one read. -/
theorem readsReturnAndChangeNothing : Obligations.ReadsReturnAndChangeNothing := by
  refine fun e s => ⟨rfl, rfl, fun h => (h.sound e).inv.noResult, fun i h hdone hi => ?_,
    fun i hfits _ => hostReadOut_of_fits hfits⟩
  obtain ⟨hfits, c, hc⟩ := (h.sound e).inv.result_cell hdone hi
  have hvalid : validCell e i s = some c := (if_pos ⟨hdone, hi⟩).trans hc
  exact ⟨c, hc, hostReadOut_of_valid hfits hvalid⟩

/-! ### What a host action answers -/

/-- A command word always has a next state. -/
theorem hostCmd_answers (w : Byte) (s : State) : ∃ t, hostCmd w s = .next t := by
  obtain ⟨-, hw⟩ | ⟨-, hw⟩ | ⟨-, hw⟩ | ⟨-, hw⟩ := hostCmd_cases w s <;> rw [hw]
  · by_cases hb : s.enc.phase = .busy
    · exact ⟨_, exec_encode_of_busy hb⟩
    · exact ⟨_, exec_encode_of_not_busy hb⟩
  · by_cases hb : s.dec.phase = .busy
    · exact ⟨_, exec_decode_of_busy hb⟩
    · exact ⟨_, exec_decode_of_not_busy hb⟩
  · exact ⟨s, rfl⟩
  · exact ⟨s, rfl⟩

/-- An action that exists has a next state. -/
theorem hostAct_of_wellFormed {a : HostAction} {s : State} (h : a.wellFormed s.cfg = true) :
    ∃ t, hostAct a s = .next t := by
  cases a with
  | cmd w => exact hostCmd_answers w s
  | writeLen e v =>
    by_cases hb : (s.engine e).phase = .busy
    · exact ⟨_, hostWriteLen_of_busy hb h⟩
    · exact ⟨_, hostWriteLen_of_not_busy hb h⟩
  | writeIn e i c =>
    by_cases hb : (s.engine e).phase = .busy
    · exact ⟨_, hostWriteIn_of_busy c hb h⟩
    · exact ⟨_, hostWriteIn_of_not_busy c hb h⟩
  | readOut e i =>
    obtain ⟨c, n, hread⟩ := hostReadOut_of_fits h
    exact ⟨_, hread⟩
  | readStatus e | readLen e | readOlen e | writeStatus e w | writeOlen e v | reset => exact ⟨_, rfl⟩

/-- Any other action is refused (93_implementation_defined.md U9). -/
theorem hostAct_of_not_wellFormed {a : HostAction} {s : State} (h : a.wellFormed s.cfg = false) :
    ∃ r, hostAct a s = .refused r := by
  cases a with
  | writeLen e v => exact ⟨_, hostWriteLen_of_not_fits h⟩
  | writeIn e i c => exact ⟨_, hostWriteIn_of_not_fits c h⟩
  | readOut e i => exact ⟨_, hostReadOut_of_not_fits h⟩
  | cmd w | readStatus e | readLen e | readOlen e | writeStatus e w | writeOlen e v | reset => cases h

/-! ### What a step answers -/

theorem engineStep_ne_refused (e : EngineId) (s : State) (r : Refusal) : engineStep e s ≠ .refused r := by
  rw [engineStep_eq_effect]
  cases turnEffect s e <;> exact nofun

/-- Under the invariant an engine's turn has a next state. -/
theorem engineStep_of_inv {e : EngineId} {s : State} (h : s.Inv) : ∃ t, engineStep e s = .next t := by
  obtain ⟨hpass, hbusy⟩ := engineStepsExactlyWhileBusy e s
  by_cases hb : (s.engine e).phase = .busy
  · obtain ⟨t, ht, -⟩ := hbusy h hb
    exact ⟨t, ht⟩
  · exact ⟨s, hpass hb⟩

theorem runIdle_eq_engineStep (s : State) : ∃ e, runIdle s = engineStep e s := by
  by_cases hb : s.enc.phase = .busy
  · exact ⟨.enc, if_pos hb⟩
  · exact ⟨.dec, if_neg hb⟩

/-- A step is the host action at the head of the agenda, or the turn of an engine. -/
theorem step_cases (s : State) :
    (∃ a rest, s.agenda = .host a :: rest ∧ step s = hostAct a { s with agenda := rest }) ∨
    ((∀ a rest, s.agenda ≠ .host a :: rest) ∧ ∃ e rest, step s = engineStep e { s with agenda := rest }) := by
  cases hagenda : s.agenda with
  | nil =>
    obtain ⟨e, he⟩ := runIdle_eq_engineStep s
    have hidle : step s = runIdle s := by simp only [step, hagenda]
    exact .inr ⟨nofun, e, s.agenda, hidle.trans he⟩
  | cons ev rest =>
    cases ev with
    | host a => exact .inl ⟨a, rest, rfl, step_of_agenda hagenda⟩
    | engine e => exact .inr ⟨nofun, e, rest, step_of_agenda hagenda⟩

/-- Settles O39: only host actions are refused, and just those that do not exist for its parameters. -/
theorem refusedExactlyWhenNoSuchAction : Obligations.RefusedExactlyWhenNoSuchAction := by
  intro s
  constructor
  · rintro ⟨r, hr⟩
    obtain ⟨a, rest, hagenda, hstep⟩ | ⟨-, e, rest, hstep⟩ := step_cases s <;> rw [hstep] at hr
    · refine ⟨a, rest, hagenda, Bool.eq_false_iff.mpr fun hwf => ?_⟩
      obtain ⟨t, ht⟩ := hostAct_of_wellFormed (s := { s with agenda := rest }) hwf
      cases ht.symm.trans hr
    · exact absurd hr (engineStep_ne_refused e _ r)
  · rintro ⟨a, rest, hagenda, hwf⟩
    rw [step_of_agenda hagenda]
    exact hostAct_of_not_wellFormed (s := { s with agenda := rest }) hwf

/-- A host action raises no fault, in any state. -/
theorem hostAct_ne_fault (a : HostAction) (s : State) (f : Fault) : hostAct a s ≠ .fault f := by
  intro hf
  cases hwf : a.wellFormed s.cfg with
  | true =>
    obtain ⟨t, ht⟩ := hostAct_of_wellFormed hwf
    cases ht.symm.trans hf
  | false =>
    obtain ⟨r, hr⟩ := hostAct_of_not_wellFormed hwf
    cases hr.symm.trans hf

/-- Settles O48: a host action never faults, and an engine's turn has a next state under the invariant. -/
theorem noStepFaults : Obligations.NoStepFaults := by
  intro s f h hf
  obtain ⟨a, rest, -, hstep⟩ | ⟨-, e, rest, hstep⟩ := step_cases s <;> rw [hstep] at hf
  · exact hostAct_ne_fault a _ f hf
  · have hrest : State.Inv { s with agenda := rest } := { h with }
    obtain ⟨t, ht⟩ := engineStep_of_inv (e := e) hrest
    cases ht.symm.trans hf

end Sys2Proof.Machine
end

section
/-! PROOFS. The end of an operation, and the operation under any interleaving (60_exceptions.md R227, R230, R234): what
an ended operation shows persists until Reset or the engine's START, and a BUSY engine's run is that of its own turns
alone. Then the error entry, and how a step takes its event. -/

namespace Sys2Proof.Machine

/-! ### What an ended operation shows -/

/-- Engine `y` shows what `x` shows of the end of its operation: STATE, ERR, OLEN and OUT (60_exceptions.md R230). -/
structure SameResult (x y : Engine) : Prop where
  phase : y.phase = x.phase
  err : y.err = x.err
  olen : y.olen = x.olen
  output : y.output = x.output

theorem SameResult.refl (x : Engine) : SameResult x x := ⟨rfl, rfl, rfl, rfl⟩

theorem SameResult.trans {x y z : Engine} (h : SameResult x y) (h' : SameResult y z) : SameResult x z :=
  ⟨h'.phase.trans h.phase, h'.err.trans h.err, h'.olen.trans h.olen, h'.output.trans h.output⟩

section
variable {e : EngineId} {s t : State}

theorem KeepsEngine.sameResult (h : KeepsEngine e s t) : SameResult (s.engine e) (t.engine e) := by
  rw [h.engine]
  exact .refl _

theorem sameResult_setEngine {e' : EngineId} {x : Engine} (hx : SameResult (s.engine e') x) :
    SameResult (s.engine e) ((s.setEngine e' x).engine e) := by
  by_cases he : e = e'
  · subst he
    rwa [setEngine_engine_same]
  · exact (keepsEngine_setEngine s x he).sameResult

/-- No host action but Reset and the engine's own START word changes what it shows: a write reaches LEN and IN only. -/
theorem hostAct_sameResult {a : HostAction} (hreset : a ≠ .reset) (hstart : a ≠ .cmd (startWord e))
    (ht : hostAct a s = .next t) : SameResult (s.engine e) (t.engine e) := by
  cases a with
  | cmd w => exact (hostCmd_keepsEngine (fun hw => hstart (hw ▸ rfl)) ht).sameResult
  | writeLen e' v =>
    obtain ⟨-, ⟨-, rfl⟩ | ⟨-, rfl⟩⟩ := hostWriteLen_next ht
    · exact .refl _
    · exact sameResult_setEngine ⟨rfl, rfl, rfl, rfl⟩
  | writeIn e' i c =>
    obtain ⟨-, ⟨-, rfl⟩ | ⟨-, rfl⟩⟩ := hostWriteIn_next ht
    · exact .refl _
    · exact sameResult_setEngine ⟨rfl, rfl, rfl, rfl⟩
  | readOut e' i =>
    obtain ⟨-, c, n, rfl, -⟩ := hostReadOut_next ht
    cases e <;> exact .refl _
  | readStatus e' | readLen e' | readOlen e' =>
    obtain rfl := Host.Outcome.next.inj ht
    cases e <;> exact .refl _
  | writeStatus e' w | writeOlen e' v => exact Host.Outcome.next.inj ht ▸ .refl _
  | reset => exact absurd rfl hreset

/-- What an engine that is not BUSY shows persists: it has no step, and the other engine's turn does not reach it. -/
theorem runEvent_sameResult {ev : Event} (hnb : (s.engine e).phase ≠ .busy) (hreset : ev ≠ .host .reset)
    (hstart : ev ≠ .host (.cmd (startWord e))) (ht : runEvent ev s = .next t) :
    SameResult (s.engine e) (t.engine e) := by
  cases ev with
  | host a => exact hostAct_sameResult (fun ha => hreset (ha ▸ rfl)) (fun ha => hstart (ha ▸ rfl)) ht
  | engine e' =>
    by_cases he : e = e'
    · subst he
      obtain rfl := Host.Outcome.next.inj ((engineStep_of_not_busy hnb).symm.trans ht)
      exact .refl _
    · exact (engineStep_keepsEngine he ht).sameResult

theorem runEvents_sameResult {evs : List Event} (hnb : (s.engine e).phase ≠ .busy)
    (hevs : ∀ ev ∈ evs, ev ≠ .host .reset ∧ ev ≠ .host (.cmd (startWord e))) (ht : runEvents evs s = .next t) :
    SameResult (s.engine e) (t.engine e) := by
  induction evs generalizing s with
  | nil => exact Host.Outcome.next.inj ht ▸ .refl _
  | cons ev evs ih =>
    obtain ⟨u, hu, ht⟩ := andThen_eq_next.mp ht
    obtain ⟨⟨hreset, hstart⟩, hevs⟩ := List.forall_mem_cons.mp hevs
    have hfirst := runEvent_sameResult hnb hreset hstart hu
    exact hfirst.trans (ih (by rwa [hfirst.phase]) hevs ht)

end

/-- Settles O32: an engine in ERROR or DONE is not BUSY. -/
theorem endedOperationPersists : Obligations.EndedOperationPersists := by
  intro e ev s t hended hreset hstart ht
  have hnb : (s.engine e).phase ≠ .busy := by
    obtain h | h := hended <;> rw [h] <;> exact nofun
  obtain ⟨hphase, herr, holen, hout⟩ := runEvent_sameResult hnb hreset hstart ht
  exact ⟨hphase, herr, holen, fun a => by rw [hout]⟩

/-! ### An operation under any interleaving -/

section
variable {e : EngineId} {s s' t u : State}

/-- An event that is neither Reset nor the engine's own turn leaves a BUSY engine as it is. -/
theorem runEvent_keepsEngine {ev : Event} (hb : (s.engine e).phase = .busy) (hreset : ev ≠ .host .reset)
    (hown : ev ≠ .engine e) (ht : runEvent ev s = .next t) : KeepsEngine e s t := by
  obtain ⟨hcfg, hepoch, -, -, hengine⟩ := messageIsStableWhileBusy e ev s t hb hreset ht
  exact ⟨hcfg, hepoch, hengine hown⟩

/-- Two states that agree on an engine still do after its turn in both. -/
theorem engineStep_of_keepsEngine (h : KeepsEngine e s s') (ht : engineStep e s = .next t) :
    ∃ t', engineStep e s' = .next t' ∧ KeepsEngine e t t' := by
  obtain ⟨eff, rfl, ht'⟩ := engineStep_congr (sameTurnView_of_same_engine h.cfg h.epoch h.engine) ht
  exact ⟨_, ht', by simp [h.cfg], by simp [h.epoch], eff.apply_engine_congr h.cfg h.engine⟩

/-- An engine that is BUSY after its turns was BUSY before them: its turns do not begin an operation. -/
theorem busy_of_runEngine_busy {k : Nat} (hu : runEngine e k s = .next u) (hb : (u.engine e).phase = .busy) :
    (s.engine e).phase = .busy := by
  by_contra hnb
  obtain rfl := Host.Outcome.next.inj ((runEngine_of_not_busy hnb k).symm.trans hu)
  exact hnb hb

/-- The run of an engine's own turns and the run of any events with as many of its turns stay in agreement on it, as
long as it is BUSY. -/
theorem runEvents_keepsEngine_of_runEngine {evs : List Event} (h : KeepsEngine e s s')
    (hreset : ∀ ev ∈ evs, ev ≠ .host .reset) (hu : runEngine e (evs.count (.engine e)) s = .next u)
    (hb : (u.engine e).phase = .busy) (ht : runEvents evs s' = .next t) : KeepsEngine e u t := by
  induction evs generalizing s s' with
  | nil =>
    obtain rfl := Host.Outcome.next.inj hu
    obtain rfl := Host.Outcome.next.inj ht
    exact h
  | cons ev evs ih =>
    obtain ⟨t₁, ht₁, ht⟩ := andThen_eq_next.mp ht
    obtain ⟨hev, hevs⟩ := List.forall_mem_cons.mp hreset
    by_cases hown : ev = .engine e
    · subst hown
      rw [List.count_cons_self] at hu
      obtain ⟨u₁, hu₁, hu⟩ := andThen_eq_next.mp hu
      obtain ⟨t₁', ht₁', hkeeps⟩ := engineStep_of_keepsEngine h hu₁
      obtain rfl := Host.Outcome.next.inj (ht₁'.symm.trans ht₁)
      exact ih hkeeps hevs hu ht
    · rw [List.count_cons_of_ne hown] at hu
      have hb' : (s'.engine e).phase = .busy := by
        rw [h.engine]
        exact busy_of_runEngine_busy hu hb
      exact ih (h.trans (runEvent_keepsEngine hb' hev hown ht₁)) hevs hu ht

end

/-- Settles O53: the two runs agree on the engine, so its next turn has the same effect in both, and what the ended
operation shows persists. -/
theorem operationIgnoresTheInterleaving : Obligations.OperationIgnoresTheInterleaving := by
  intro e evs s t u _ hreset hu hb ht
  have hkeeps : KeepsEngine e u t := runEvents_keepsEngine_of_runEngine (.refl e s) hreset hu hb ht
  refine ⟨hkeeps.engine, fun v hv => ?_⟩
  obtain ⟨w, hw, -, -, hengine⟩ := engineStep_of_keepsEngine hkeeps hv
  refine ⟨w, ?_, hengine, fun later z hnb hlater hz => ?_⟩
  · rw [runEvents_append, ht, andThen_next]
    exact andThen_eq_next.mpr ⟨w, hw, rfl⟩
  · obtain ⟨hphase, herr, holen, hout⟩ := runEvents_sameResult (e := e) (by rwa [hengine]) hlater hz
    rw [hengine] at hphase herr holen hout
    exact ⟨hphase, herr, holen, fun a => by rw [hout]⟩

/-! ### The error entry -/

theorem decStore_of_no_group {s : State} (h : s.decGroup = none) : decStore s = .next s := by simp only [decStore, h]

theorem encStore_of_no_group {s : State} (h : s.encGroup = none) : encStore s = .next s := by simp only [encStore, h]

/-- Settles O31: the error entry clears the group registers, without which lanes and stores do nothing, and leaves an
engine that is not BUSY. -/
theorem errorEntry : Obligations.ErrorEntry := fun e x s =>
  ⟨raise_errorEntered e x s, raise_engine_phase e x s, raise_engine_err e x s, raise_engine_olen e x s,
    fun _ => by rw [raise_engine_output, read_nil], raise_engine_len e x s, raise_engine_input e x s,
    fun _ he => raise_engine_other s x he, fun _ => runLane_none (raise_dec_decGroup x s),
    decStore_of_no_group (raise_dec_decGroup x s), encStore_of_no_group (raise_enc_encGroup x s),
    engineStep_of_not_busy (by rw [raise_engine_phase]; exact nofun)⟩

/-! ### The step -/

theorem step_of_empty_agenda {s : State} (h : s.agenda = []) : step s = runIdle s := by simp only [step, h]

/-- Settles O45: in a quiescent state the decoder's turn, which an idle block takes, changes nothing. -/
theorem stepTakesTheNextEvent : Obligations.StepTakesTheNextEvent := by
  have henc (s : State) (h : s.agenda = []) (hb : s.enc.phase = .busy) : step s = engineStep .enc s :=
    (step_of_empty_agenda h).trans (if_pos hb)
  have hdec (s : State) (h : s.agenda = []) (hnb : s.enc.phase ≠ .busy) : step s = engineStep .dec s :=
    (step_of_empty_agenda h).trans (if_neg hnb)
  refine ⟨fun _ _ _ => step_of_agenda, henc, hdec, fun s h ⟨henc_not_busy, hdec_not_busy⟩ => ?_⟩
  exact (hdec s h henc_not_busy).trans (engineStep_of_not_busy (e := .dec) hdec_not_busy)

end Sys2Proof.Machine
end

section
/-! PROOFS. The end of both engines' operations with no event to come (70_reset_and_hazards.md R271, R272), by a count
of the steps that are left, which every step of a BUSY engine lowers; and Reset (R260, R261). -/

namespace Sys2Proof.Machine

/-! ### The steps that are left -/

/-- The steps that the operation of an engine still takes at most: the group steps of what is unread of the message,
and the completion step (70_reset_and_hazards.md R272). -/
def Engine.stepsLeft (e : EngineId) (x : Engine) : Nat := if x.phase = .busy then stepCount e (x.len - x.idx) else 0

/-- The steps that both operations still take at most. -/
def State.stepsLeft (s : State) : Nat := s.enc.stepsLeft .enc + s.dec.stepsLeft .dec

theorem stepCount_mono {e : EngineId} {m n : Nat} (h : m ≤ n) : stepCount e m ≤ stepCount e n :=
  Nat.succ_le_succ (Nat.div_le_div_right (Nat.add_le_add_right h _))

/-- A whole group is one step. -/
theorem stepCount_sub_group_lt {e : EngineId} {n : Nat} (h : 0 < n) : stepCount e (n - groupIn e) < stepCount e n := by
  cases e <;> simp only [stepCount, ceilDiv, groupIn] <;> omega

section
variable {e : EngineId} {x y : Engine}

theorem stepsLeft_of_busy (hb : x.phase = .busy) : x.stepsLeft e = stepCount e (x.len - x.idx) := if_pos hb

theorem stepsLeft_of_not_busy (hnb : x.phase ≠ .busy) : x.stepsLeft e = 0 := if_neg hnb

theorem stepsLeft_pos (hb : x.phase = .busy) : 0 < x.stepsLeft e := by
  rw [stepsLeft_of_busy hb]
  exact Nat.succ_pos _

theorem stepsLeft_le_stepCount (e : EngineId) (x : Engine) : x.stepsLeft e ≤ stepCount e x.len := by
  by_cases hb : x.phase = .busy
  · rw [stepsLeft_of_busy hb]
    exact stepCount_mono (Nat.sub_le _ _)
  · rw [stepsLeft_of_not_busy hb]
    exact Nat.zero_le _

/-- Ending the operation leaves no step. -/
theorem stepsLeft_lt_of_ended (hb : x.phase = .busy) (hnb : y.phase ≠ .busy) : y.stepsLeft e < x.stepsLeft e := by
  rw [stepsLeft_of_not_busy hnb]
  exact stepsLeft_pos hb

theorem stepsLeft_stored_lt (bs : List Byte) (hb : x.phase = .busy) (hlt : x.idx < x.len) :
    (x.stored (groupIn e) bs).stepsLeft e < x.stepsLeft e := by
  rw [stepsLeft_of_busy hb, stepsLeft_of_busy (x := x.stored (groupIn e) bs) hb]
  calc stepCount e (x.len - (x.idx + groupIn e))
    _ = stepCount e (x.len - x.idx - groupIn e) := by rw [Nat.sub_add_eq]
    _ < stepCount e (x.len - x.idx) := stepCount_sub_group_lt (Nat.sub_pos_of_lt hlt)

end

/-! ### A turn of a BUSY engine -/

section
variable {e : EngineId} {s t : State}

theorem decodedEffect_eq_store {result : Option (List Byte)} {n : Nat} {bs : List Byte}
    (h : decodedEffect s result = .ok (.store n bs)) : n = 4 := by
  cases result with
  | none => cases h
  | some ys =>
    simp only [decodedEffect] at h
    split_ifs at h
    cases h
    rfl

/-- A group step that stores has read one whole group (41_encoder.md R150, 42_decoder.md R180). -/
theorem groupEffect_eq_store {n : Nat} {bs : List Byte} (h : groupEffect s e = .ok (.store n bs)) :
    n = groupIn e := by
  cases e with
  | enc =>
    simp only [groupEffect] at h
    split_ifs at h
    cases h
    rfl
  | dec =>
    simp only [groupEffect] at h
    split_ifs at h
    exact decodedEffect_eq_store h

/-- Only a turn with cells of the message unread stores. -/
theorem turnEffect_eq_store {n : Nat} {bs : List Byte} (h : turnEffect s e = .ok (.store n bs)) :
    (s.engine e).idx < (s.engine e).len ∧ n = groupIn e := by
  unfold turnEffect at h
  split at h
  · split at h
    · exact ⟨‹_›, groupEffect_eq_store h⟩
    · cases h
  · cases h

@[simp] theorem TurnEffect.apply_agenda (e : EngineId) (s : State) (eff : TurnEffect) :
    (eff.apply e s).agenda = s.agenda := by
  cases eff <;> simp [TurnEffect.apply]

theorem engineStep_agenda (ht : engineStep e s = .next t) : t.agenda = s.agenda := by
  obtain ⟨eff, -, rfl⟩ := engineStep_eq_next_iff.mp ht
  exact TurnEffect.apply_agenda e s eff

/-- The turn of a BUSY engine completes, raises or reads a group; each leaves its operation fewer steps. -/
theorem engineStep_stepsLeft_lt (h : s.Inv) (hb : (s.engine e).phase = .busy) (ht : engineStep e s = .next t) :
    (t.engine e).stepsLeft e < (s.engine e).stepsLeft e := by
  obtain ⟨eff, heff, rfl⟩ := engineStep_eq_next_iff.mp ht
  obtain hend | hend | ⟨n, bs, -, hstore⟩ := turnEffect_of_inv h hb
  · obtain rfl := Except.ok.inj (heff.symm.trans hend)
    exact stepsLeft_lt_of_ended hb (by simp [TurnEffect.apply])
  · obtain rfl := Except.ok.inj (heff.symm.trans hend)
    exact stepsLeft_lt_of_ended hb (by simp [TurnEffect.apply])
  · obtain rfl := Except.ok.inj (heff.symm.trans hstore)
    obtain ⟨hlt, rfl⟩ := turnEffect_eq_store hstore
    simpa [TurnEffect.apply] using stepsLeft_stored_lt bs hb hlt

/-- The other engine's operation keeps its steps, so both together have fewer left. -/
theorem engineStep_state_stepsLeft_lt (h : s.Inv) (hb : (s.engine e).phase = .busy) (ht : engineStep e s = .next t) :
    t.stepsLeft < s.stepsLeft := by
  have hown := engineStep_stepsLeft_lt h hb ht
  cases e with
  | enc =>
    have hdec : t.dec = s.dec := (engineStep_keepsEngine (e := .dec) (e' := .enc) nofun ht).engine
    rw [State.stepsLeft, hdec]
    exact Nat.add_lt_add_right hown _
  | dec =>
    have henc : t.enc = s.enc := (engineStep_keepsEngine (e := .enc) (e' := .dec) nofun ht).engine
    rw [State.stepsLeft, henc]
    exact Nat.add_lt_add_left hown _

end

/-! ### Both engines end -/

/-- With no event to come, a block that is not quiescent takes the turn of a BUSY engine (70_reset_and_hazards.md R271;
log entry 2). -/
theorem step_eq_busy_turn {s : State} (hagenda : s.agenda = []) (hnq : ¬ s.quiescent) :
    ∃ e, (s.engine e).phase = .busy ∧ step s = engineStep e s := by
  obtain ⟨-, henc, hdec, -⟩ := stepTakesTheNextEvent
  by_cases hb : s.enc.phase = .busy
  · exact ⟨.enc, hb, henc s hagenda hb⟩
  · exact ⟨.dec, by_contra fun hnb => hnq ⟨hb, hnb⟩, hdec s hagenda hb⟩

/-- Such a step has a next state, again with the invariant and no event to come, and lowers the count. -/
theorem idle_step_progress {s : State} (h : s.Inv) (hagenda : s.agenda = []) (hnq : ¬ s.quiescent) :
    ∃ t, step s = .next t ∧ t.Inv ∧ t.agenda = [] ∧ t.stepsLeft < s.stepsLeft := by
  obtain ⟨e, hb, hstep⟩ := step_eq_busy_turn hagenda hnq
  obtain ⟨t, hturn⟩ := engineStep_of_inv (e := e) h
  have ht : step s = .next t := hstep.trans hturn
  exact ⟨t, ht, step_inv h ht, (engineStep_agenda hturn).trans hagenda, engineStep_state_stepsLeft_lt h hb hturn⟩

theorem runSteps_reaches_quiescent {n : Nat} {s : State} (h : s.Inv) (hagenda : s.agenda = []) (hn : s.stepsLeft ≤ n) :
    ∃ k t, k ≤ n ∧ runSteps k s = .next t ∧ t.quiescent := by
  induction n generalizing s with
  | zero =>
    refine ⟨0, s, Nat.le_refl 0, rfl, by_contra fun hnq => ?_⟩
    obtain ⟨t, -, -, -, hlt⟩ := idle_step_progress h hagenda hnq
    omega
  | succ n ih =>
    by_cases hq : s.quiescent
    · exact ⟨0, s, Nat.zero_le _, rfl, hq⟩
    · obtain ⟨t, ht, hinv, hempty, hlt⟩ := idle_step_progress h hagenda hq
      obtain ⟨k, u, hk, hu, hquiet⟩ := ih hinv hempty (by omega)
      exact ⟨k + 1, u, Nat.succ_le_succ hk, andThen_eq_next.mpr ⟨t, ht, hu⟩, hquiet⟩

/-- Settles O60: the steps that are left are at most the step counts of the two messages. -/
theorem busyEnginesFinish : Obligations.BusyEnginesFinish := fun s h hagenda =>
  runSteps_reaches_quiescent h hagenda
    (Nat.add_le_add (stepsLeft_le_stepCount .enc s.enc) (stepsLeft_le_stepCount .dec s.dec))

/-! ### The Reset action -/

theorem resetBlock_engine (s : State) (e : EngineId) :
    (resetBlock s).engine e = Engine.resetWith s.cfg e (s.engine e).draws := by
  cases e <;> rfl

/-- Settles O41: both engines are at their reset values, whose buffers list no cell, and an IDLE engine has no step (log
entry 3). -/
theorem resetAbandonsBothEngines : Obligations.ResetAbandonsBothEngines := by
  refine fun s => ⟨resetBlock s, rfl, fun e => ?_, rfl, rfl, rfl⟩
  have hidle : engineStep e (resetBlock s) = .next (resetBlock s) :=
    engineStep_of_not_busy (by rw [resetBlock_engine]; exact nofun)
  rw [resetBlock_engine]
  exact ⟨rfl, rfl, rfl, rfl, fun i => ⟨read_nil i, read_nil i⟩, hidle⟩

end Sys2Proof.Machine
end
